-- ==== Sys2Proof/Word.lean ====
section
/-! DEFINITION. The word types of the block: the byte and the 32-bit integer value (spec 00_scope.md R5, R7, R9). -/

namespace Sys2Proof

/-- A byte: an unsigned 8-bit value; bit 0 is the least significant (R5, R9). -/
abbrev Byte := BitVec 8

/-- The contents of the integer value register VAL, VALUE_BITS = 32 (R7, R26). -/
abbrev Value := BitVec 32

end Sys2Proof
end

