-- ==== Sys2Proof/Syntax.lean ====
section
/-! DEFINITION. The operations as syntax: the format OPW of an operation word and one constructor for each row of the
opcode table (spec 30_encoding.md R87, R88). -/

namespace Sys2Proof

/-- The fields of an operation word, format OPW (R87): `zero` is bits 7:5, `b` is bit 4, `opc` is bits 3:0. -/
structure OpWord where
  zero : BitVec 3
  b    : BitVec 1
  opc  : BitVec 4
  deriving DecidableEq, Repr

/-- The buffer that CSUM's field `b` selects: 0 is TXF, 1 is RXF (R87, R113). -/
inductive Buffer where
  | txf
  | rxf
  deriving DecidableEq, Repr

/-- The ten operations of R88, one constructor for each row of the opcode table. -/
inductive Instr where
  /-- Clear the status of the last operation and the overrun flag (R162). -/
  | clr
  /-- Encode VAL at width WIDTH into IB (R102). -/
  | enc
  /-- Decode IB at width WIDTH into VAL (R103). -/
  | dec
  /-- Assemble the outgoing frame in TXF (R112). -/
  | build
  /-- Checksum of the first 25 bytes of a buffer: CSUM.T and CSUM.R (R113). -/
  | csum (buf : Buffer)
  /-- Validate the outgoing frame in TXF (R116). -/
  | vout
  /-- Validate the incoming buffer's length (R117). -/
  | vin
  /-- One exchange with the payload in PL (R140). -/
  | send
  /-- One exchange whose payload is VAL encoded (R141). -/
  | sendi
  /-- One exchange with an empty payload, then decode the response (R142). -/
  | geti
  deriving DecidableEq, Repr

/-- The bit of the operation word that stands for a buffer (R87). -/
def Buffer.bit : Buffer → BitVec 1
  | .txf => 0
  | .rxf => 1

/-- The buffer that a value of the field `b` selects (R87). -/
def Buffer.ofBit (b : BitVec 1) : Buffer := if b = 0 then .txf else .rxf

end Sys2Proof
end

