-- ==== Sys2Proof/WellFormed.lean ====
section
/-! DEFINITION. Which operation words are legal: the three checks of spec 30_encoding.md R87 and R89. The type `Instr`
itself admits no ill-formed instruction, so the checks are about the word. -/

namespace Sys2Proof

/-- Bits 7:5 must be 0 (R87). -/
def OpWord.zeroBitsClear (f : OpWord) : Bool := f.zero == 0

/-- `opc` in 0xA..0xF selects no operation (R89). -/
def OpWord.opcodeDefined (f : OpWord) : Bool := f.opc.toNat ≤ 9

/-- `b` must be 0 for every operation but CSUM, whose `opc` is 4 (R87, R89). -/
def OpWord.selectAllowed (f : OpWord) : Bool := f.b == 0 || f.opc == 4

/-- A legal operation word: it selects a row of R88 (R89). -/
def OpWord.wellFormed (f : OpWord) : Bool :=
  f.zeroBitsClear && f.opcodeDefined && f.selectAllowed

/-- The fields of an operation's word: its `opc` and `b` (the opcode map of R88). -/
def Instr.opWord : Instr → OpWord
  | .clr      => ⟨0, 0, 0x0⟩
  | .enc      => ⟨0, 0, 0x1⟩
  | .dec      => ⟨0, 0, 0x2⟩
  | .build    => ⟨0, 0, 0x3⟩
  | .csum buf => ⟨0, buf.bit, 0x4⟩
  | .vout     => ⟨0, 0, 0x5⟩
  | .vin      => ⟨0, 0, 0x6⟩
  | .send     => ⟨0, 0, 0x7⟩
  | .sendi    => ⟨0, 0, 0x8⟩
  | .geti     => ⟨0, 0, 0x9⟩

/-- An instruction is well formed when its word is. -/
def Instr.wellFormed (i : Instr) : Bool := i.opWord.wellFormed

end Sys2Proof
end

