-- ==== Sys2Proof/Decode.lean ====
section
/-! DEFINITION. Decoding an operation word, total, rejecting by name (spec 30_encoding.md R92), and the encoder
(R87, R88). An operation word is one byte and there is no longer form (R87). -/

namespace Sys2Proof

/-- Why bytes are no operation word (R89). -/
inductive DecodeError where
  /-- There is no byte to decode. -/
  | noByte
  /-- A bit of 7:5 is set. -/
  | zeroBitsSet (w : Byte)
  /-- `b` is 1 and `opc` is not 4. -/
  | bufferSelectSet (w : Byte)
  /-- `opc` is 0xA..0xF. -/
  | opcodeUndefined (w : Byte)
  deriving DecidableEq, Repr

/-- The fields of a word (R87). -/
def OpWord.ofByte (w : Byte) : OpWord :=
  ⟨w.extractLsb' 5 3, w.extractLsb' 4 1, w.extractLsb' 0 4⟩

/-- The word with the given fields (R87). -/
def OpWord.toByte (f : OpWord) : Byte := f.zero ++ f.b ++ f.opc

/-- Decode one operation word, in the order of the cases of R92. -/
def decodeWord (w : Byte) : Except DecodeError Instr :=
  let f := OpWord.ofByte w
  if f.zero ≠ 0 then .error (.zeroBitsSet w)
  else if f.opc = 4 then .ok (.csum (Buffer.ofBit f.b))
  else if f.b = 1 then .error (.bufferSelectSet w)
  else match f.opc.toNat with
    | 0 => .ok .clr
    | 1 => .ok .enc
    | 2 => .ok .dec
    | 3 => .ok .build
    | 5 => .ok .vout
    | 6 => .ok .vin
    | 7 => .ok .send
    | 8 => .ok .sendi
    | 9 => .ok .geti
    | _ => .error (.opcodeUndefined w)

/-- Decode the first operation of a sequence of bytes, with the bytes that follow it. -/
def decode : List Byte → Except DecodeError (Instr × List Byte)
  | [] => .error .noByte
  | w :: rest =>
    match decodeWord w with
    | .ok i => .ok (i, rest)
    | .error e => .error e

/-- The operation word of an instruction (R88). -/
def encodeWord (i : Instr) : Byte := i.opWord.toByte

/-- The bytes of an instruction: its one word (R87). -/
def encode (i : Instr) : List Byte := [encodeWord i]

/-- The column `mask` of the opcode table (R88). -/
def Instr.rowMask : Instr → Byte
  | .csum _ => 0xEF
  | .clr | .enc | .dec | .build | .vout | .vin | .send | .sendi | .geti => 0xFF

/-- The column `match` of the opcode table (R88). -/
def Instr.rowMatch : Instr → Byte
  | .clr    => 0x00
  | .enc    => 0x01
  | .dec    => 0x02
  | .build  => 0x03
  | .csum _ => 0x04
  | .vout   => 0x05
  | .vin    => 0x06
  | .send   => 0x07
  | .sendi  => 0x08
  | .geti   => 0x09

/-- What the decoder reads from an instruction whose bits are `w`, the first byte in bits 7..0. Every row of the table is
8 bits, one byte; another length is no row. -/
def decodeTableWord (nbits w : Nat) : Option Instr :=
  if nbits = 8 ∧ w < 2 ^ 8 then
    match decode [BitVec.ofNat 8 w] with
    | .ok (i, _) => some i
    | .error _ => none
  else none

end Sys2Proof
end

