-- ==== Sys2Proof/Machine/Input.lean ====
section
/-! DEFINITION. What the outside presents to the block in one step: a host access, the stream's signals, reset
(spec 00_scope.md R11, R13; 10_state.md R46; 20_memory.md R64 to R66). -/

namespace Sys2Proof.Machine

/-- The stream's input signals at one moment (R46). Several may be signalled together; which one wins is
`StreamSignals.txAnswer` and `StreamSignals.rxAnswer`. -/
structure StreamSignals where
  /-- `tx_ready`: the stream accepts the offered byte. -/
  txReady : Bool := false
  /-- `tx_err`: the stream's write has failed. -/
  txErr : Bool := false
  /-- `rx_valid`: a byte is offered. -/
  rxValid : Bool := false
  /-- `rx_data`: the offered byte. -/
  rxData : Byte := 0
  /-- `rx_timeout`: the stream's read timed out. -/
  rxTimeout : Bool := false
  /-- `rx_err`: the stream's read has failed. -/
  rxErr : Bool := false
  deriving DecidableEq, Repr, Inhabited

/-- The stream's answer to an offered byte: the events `TxAccept` and `TxErr` (R64). -/
inductive TxAnswer where
  | accept
  | err
  deriving DecidableEq, Repr

/-- The stream's answer to a read: the events `RxByte b`, `RxTimeout` and `RxErr` (R65). -/
inductive RxAnswer where
  | byte (b : Byte)
  | timeout
  | err
  deriving DecidableEq, Repr

/-- The one answer the signals give in the TX phase: `TxErr` wins over `TxAccept` (R64, R180 c). -/
def StreamSignals.txAnswer (g : StreamSignals) : Option TxAnswer :=
  if g.txErr then some .err
  else if g.txReady then some .accept
  else none

/-- The one answer the signals give in the RX phase: `RxErr`, then `RxTimeout`, then `RxByte`; the first wins and a
byte offered at the same moment is not taken (R65, R180 c). -/
def StreamSignals.rxAnswer (g : StreamSignals) : Option RxAnswer :=
  if g.rxErr then some .err
  else if g.rxTimeout then some .timeout
  else if g.rxValid then some (.byte g.rxData)
  else none

/-- What arrives at the block in one step beside `rst`. A host access and a stream event never coincide (R180 e). -/
inductive Act where
  /-- Nothing arrives: no access and no signal. -/
  | quiet
  /-- `HostRead(a)` (R160). -/
  | hostRead (a : Byte)
  /-- `HostWrite(a, v)` (R161). -/
  | hostWrite (a v : Byte)
  /-- The stream's signals (R64, R65). -/
  | stream (g : StreamSignals)
  deriving DecidableEq, Repr, Inhabited

/-- The input of one step: whether `rst` is asserted, and what else arrives (R13, R200). -/
structure Input where
  rst : Bool
  act : Act
  deriving DecidableEq, Repr, Inhabited

/-- `rst` asserted, nothing else: the line `RESET` of R93. -/
def Input.reset : Input := ⟨true, .quiet⟩

/-- `HostRead(a)`: the line `RD a` of R93. -/
def Input.read (a : Byte) : Input := ⟨false, .hostRead a⟩

/-- `HostWrite(a, v)`: the line `WR a, v` of R93. -/
def Input.write (a v : Byte) : Input := ⟨false, .hostWrite a v⟩

/-- A write of the operation word `w` to OP, address 0x00 (R87). -/
def Input.opWord (w : Byte) : Input := .write 0x00 w

/-- `TxAccept` alone: the line `TX+` of R93. -/
def Input.txAccept : Input := ⟨false, .stream { txReady := true }⟩

/-- `TxErr` alone: the line `TX!` of R93. -/
def Input.txErr : Input := ⟨false, .stream { txErr := true }⟩

/-- `RxByte(b)` alone: the line `RX b` of R93. -/
def Input.rxByte (b : Byte) : Input := ⟨false, .stream { rxValid := true, rxData := b }⟩

/-- `RxTimeout` alone: the line `RX?` of R93. -/
def Input.rxTimeout : Input := ⟨false, .stream { rxTimeout := true }⟩

/-- `RxErr` alone: the line `RX!` of R93. -/
def Input.rxErr : Input := ⟨false, .stream { rxErr := true }⟩

end Sys2Proof.Machine
end

