-- ==== Sys2Proof/Config.lean ====
section
/-! DEFINITION. What is fixed for one block and not state of it: the allowed command-code set CMD_ALLOWED
(spec 00_scope.md R6), and the free values of the model. -/

namespace Sys2Proof

/-- A set of command codes, one bit for each of the 256 codes, so that equal sets are equal data. -/
abbrev CommandSet := BitVec 256

/-- `CMD_ALLOWED(c)`: is the code `c` in the set (R6). -/
def CommandSet.admits (set : CommandSet) (c : Byte) : Bool := set.getLsbD c.toNat

/-- The default set of R6: 0x12 and every one of the 77 codes 0x20 to 0x6C. -/
def Config.defaultCommands : CommandSet :=
  (BitVec.ofNat 256 (2 ^ 77 - 1) <<< 0x20) ||| (1#256 <<< 0x12)

/-- DESIGN CHOICE (log 2, safe): the input of the step when `State.inputs` lists none. A free value: the agents of R13
are under no law (R66), so nothing constrains it. The argument counts the free inputs drawn before it. -/
opaque Config.freeInput : Nat → Machine.Input

end Sys2Proof
end

