-- ==== Sys2Proof/Machine/State.lean ====
section
/-! DEFINITION. The state of the block (spec 10_state.md R20, "and nothing else"), the environment the model keeps beside it
as plain data, the outcomes' reasons, and the state after reset (R47). -/

namespace Sys2Proof.Machine

/-- The sequencer's phase, STATUS[5:4]; the value 3 never occurs (R35, R40). -/
inductive Phase where
  | idle
  | tx
  | rx
  deriving DecidableEq, Repr

/-- The typed errors in the order of their codes 0 to 7 (60_exceptions.md R170). -/
inductive ErrCode where
  | noError
  | invalidFrame
  | payloadTooLong
  | responseLength
  | unsupportedWidth
  | valueOutOfRange
  | ioError
  | illegalOperation
  deriving DecidableEq, Repr

/-- Why the model stops. The block itself never stops (R170: "no abort, no halt"); each of these is raised only in a state
that R42 or R142 says is never reached, where the spec's rule names a byte that does not exist (log 5). -/
inductive Fault where
  /-- Raised by `onTxAccept` in a TX phase with TXCNT above 25: there is no byte TXF[TXCNT] to send (R134). Safe. -/
  | txOffsetBeyondFrame
  /-- Raised by `onRxByte` in an RX phase with RXCNT above 25: there is no RXF[RXCNT] to store to (R136). Safe. -/
  | rxOffsetBeyondFrame
  /-- Raised by `completeExchange` for a GETI whose WIDTH is not 1, 2 or 4: `le_decode` is not defined there (R12, R138).
  Safe. -/
  | completionWidthUnsupported
  deriving DecidableEq, Repr

/-- Why the model gives an instruction no meaning. -/
inductive Refusal where
  /-- Raised by an arm of `exec` whose instruction has no meaning yet. Safe. No arm raises it. -/
  | notModelled (mnemonic : String)
  deriving DecidableEq, Repr

/-- The state. The fields down to `rxf` are the block's own, the whole list of R20; the last five are the model's. -/
structure State where
  /-- XOP: the word of the last operation started (R34). -/
  xop : Byte
  /-- STATUS.BUSY (R35). -/
  busy : Bool
  /-- STATUS.DONE (R35). -/
  done : Bool
  /-- STATUS.ERR (R35). -/
  err : Bool
  /-- STATUS.OVR (R35). -/
  ovr : Bool
  /-- PHASE, STATUS[5:4] (R40). -/
  phase : Phase
  /-- ERRCODE[2:0] (R36). -/
  errCode : ErrCode
  /-- ERRINFO (R37). -/
  errInfo : Byte
  /-- VMASK[3:0] (R38). -/
  vmask : BitVec 4
  /-- TXCNT (R33). -/
  txcnt : Byte
  /-- RXCNT (R30). -/
  rxcnt : Byte
  /-- CSUM (R32). -/
  csum : Byte
  /-- ADDR (R21). -/
  addr : Byte
  /-- CMD (R22). -/
  cmd : Byte
  /-- PLEN (R23). -/
  plen : Byte
  /-- WIDTH (R25). -/
  width : Byte
  /-- VAL (R26). -/
  val : Value
  /-- IB[0..3] (R27). -/
  ib : Vector Byte 4
  /-- PL[0..21] (R24). -/
  pl : Vector Byte 22
  /-- TXF[0..25] (R28). -/
  txf : Vector Byte 26
  /-- RXF[0..25] (R29). -/
  rxf : Vector Byte 26
  /-- CMD_ALLOWED, the configuration constant of R6: no step changes it (log 3). -/
  cmdAllowed : CommandSet
  /-- What the outside presents in the coming steps, the next first (log 1). -/
  inputs : List Input
  /-- How many inputs have been drawn from `Config.freeInput` (log 2). -/
  drawn : Nat
  /-- The TxPut events so far, oldest first (R11, R134; log 4). -/
  wire : List Byte
  /-- What HostReads have returned so far, as (address, byte), oldest first (R160; log 4). -/
  readLog : List (Byte × Byte)
  deriving DecidableEq, Repr

/-- The state right after reset: ADDR is 0xFF and everything else 0 (R47, R200). The model's own fields start empty, with
the default command set of R6 (log 1, 2, 3, 4). -/
def State.reset : State where
  xop := 0x00
  busy := false
  done := false
  err := false
  ovr := false
  phase := .idle
  errCode := .noError
  errInfo := 0x00
  vmask := 0
  txcnt := 0x00
  rxcnt := 0x00
  csum := 0x00
  addr := 0xFF
  cmd := 0x00
  plen := 0x00
  width := 0x00
  val := 0
  ib := Vector.replicate 4 0x00
  pl := Vector.replicate 22 0x00
  txf := Vector.replicate 26 0x00
  rxf := Vector.replicate 26 0x00
  cmdAllowed := Config.defaultCommands
  inputs := []
  drawn := 0
  wire := []
  readLog := []

end Sys2Proof.Machine
end

