-- ==== Sys2Proof/Machine/Codec.lean ====
section
/-! DEFINITION. The pure functions: the little-endian integer codec, the checksum and the frame
(spec 00_scope.md R12; 40_integer_codec.md R100, R101; 41_frame_codec.md R110, R111). They are defined over all naturals and
all byte sequences (R7). -/

namespace Sys2Proof.Machine

/-- The supported integer widths are 1, 2 and 4 (R5, R25). -/
def widthSupported (w : Nat) : Bool := w == 1 || w == 2 || w == 4

/-- `le_encode(v, w)`: byte `i` is `(v div 2^(8i)) mod 256` (R12, R86). -/
def leEncode (v w : Nat) : List Byte :=
  (List.range w).map fun i => BitVec.ofNat 8 (v / 2 ^ (8 * i))

/-- `le_decode(s)`: the sum of `s[i] * 2^(8i)` (R12), the first byte the least significant. -/
def leDecode : List Byte → Nat
  | [] => 0
  | b :: s => b.toNat + 256 * leDecode s

/-- `encode(value, width)`: the width is tested first, then the range; overflow is rejected, never wrapped (R100). -/
def encodeInt (v w : Nat) : Except ErrCode (List Byte) :=
  if !widthSupported w then .error .unsupportedWidth
  else if v ≥ 2 ^ (8 * w) then .error .valueOutOfRange
  else .ok (leEncode v w)

/-- `decode(bytes)`: the length must be 1, 2 or 4 (R101). -/
def decodeInt (s : List Byte) : Except ErrCode Nat :=
  if !widthSupported s.length then .error .unsupportedWidth
  else .ok (leDecode s)

/-- The sum of bytes modulo 256 (R110). The callers give it the first 25 bytes of a frame. -/
def checksum (s : List Byte) : Byte := BitVec.ofNat 8 (s.map BitVec.toNat).sum

/-- The first 25 bytes of `frame(a, c, p)`: start byte, address, command, payload, zero padding (R12, R80 to R84). -/
def frameBody (a c : Byte) (p : List Byte) : List Byte :=
  [0xAA, a, c] ++ p ++ List.replicate (22 - p.length) 0x00

/-- `frame(a, c, p)`: the body and its checksum, 26 bytes for a payload of at most 22 (R12, R85). -/
def frame (a c : Byte) (p : List Byte) : List Byte :=
  frameBody a c p ++ [checksum (frameBody a c p)]

/-- `build(address, command, payload)`: its only failure is a payload longer than 22 bytes (R111). -/
def buildFrame (a c : Byte) (p : List Byte) : Except ErrCode (List Byte) :=
  if p.length > 22 then .error .payloadTooLong
  else .ok (frame a c p)

end Sys2Proof.Machine
end

