-- ==== Sys2Proof/Machine/Operands.lean ====
section
/-! DEFINITION. The operand forms: byte sequences in buffers, the operands of the operations (spec 00_scope.md R10;
30_encoding.md R95), the byte view of VAL, and the host port's one addressing mode, absolute (20_memory.md R61). -/

namespace Sys2Proof.Machine

/-- The byte sequence `BUF[off .. off+len-1]` (R10). Its length is always `len`; an offset beyond the buffer reads 0x00,
which no rule uses: the one caller that can name such an offset rejects the sequence by its length (DEDUCED, safe, log 14). -/
def bytesAt {n : Nat} (buf : Vector Byte n) (off len : Nat) : List Byte :=
  (List.range len).map fun i => buf.toList.getD (off + i) 0x00

/-- `BUF[off .. off+len(b)-1] <- b`: the other bytes are unchanged (R10). -/
def putBytes {n : Nat} (buf : Vector Byte n) (off : Nat) (b : List Byte) : Vector Byte n :=
  Vector.ofFn fun i : Fin n =>
    if off ≤ i.val ∧ i.val < off + b.length then b.getD (i.val - off) 0x00 else buf[i]

/-- Byte `k` of VAL, `VAL[8k+7 : 8k]` (R26, R61). -/
def valByte (v : Value) (k : Fin 4) : Byte := v.extractLsb' (8 * k.val) 8

/-- VAL with byte `k` replaced and the other 24 bits unchanged (R26, R161). -/
def setValByte (v : Value) (k : Fin 4) (b : Byte) : Value :=
  (v &&& ~~~(0xFF#32 <<< (8 * k.val))) ||| (b.setWidth 32 <<< (8 * k.val))

/-- The payload operand of BUILD and SEND: `PL[0..PLEN-1]` (R24, R95). -/
def payloadOperand (s : State) : List Byte := bytesAt s.pl 0 s.plen.toNat

/-- The operand of ENC and SENDI: VAL encoded at width WIDTH, or the error (R95, R100). -/
def encodedOperand (s : State) : Except ErrCode (List Byte) := encodeInt s.val.toNat s.width.toNat

/-- The operand of DEC: `IB[0..WIDTH-1]` decoded, or the error (R95, R101). -/
def decodedOperand (s : State) : Except ErrCode Nat := decodeInt (bytesAt s.ib 0 s.width.toNat)

/-- The payload operand of GETI: the empty payload, once WIDTH is found supported (R142, R143). -/
def emptyOperand (s : State) : Except ErrCode (List Byte) :=
  if widthSupported s.width.toNat then .ok [] else .error .unsupportedWidth

/-- The integer in the response that GETI returns: `RXF[3 .. 3+WIDTH-1]` decoded (R138, R142). -/
def responseInteger (s : State) : Except ErrCode Nat := decodeInt (bytesAt s.rxf 3 s.width.toNat)

/-- The operand of CSUM: the first 25 bytes of the selected buffer (R113). -/
def checksumOperand (buf : Buffer) (s : State) : List Byte :=
  match buf with
  | .txf => bytesAt s.txf 0 25
  | .rxf => bytesAt s.rxf 0 25

/-- What stands at an address of the host register space (R61). -/
inductive Reg where
  | op
  | status
  | errCode
  | errInfo
  | vmask
  | txcnt
  | rxcnt
  | csum
  | addr
  | cmd
  | plen
  | width
  | val (k : Fin 4)
  | ib (i : Fin 4)
  | pl (i : Fin 22)
  | txf (i : Fin 26)
  | rxf (i : Fin 26)
  | reserved
  deriving DecidableEq, Repr

/-- An address at or above the buffers' area, from 0x10 on (R61). -/
def regOfHigh (n : Nat) : Reg :=
  if h : 0x10 ≤ n ∧ n ≤ 0x13 then .ib ⟨n - 0x10, by omega⟩
  else if h : 0x20 ≤ n ∧ n ≤ 0x35 then .pl ⟨n - 0x20, by omega⟩
  else if h : 0x40 ≤ n ∧ n ≤ 0x59 then .txf ⟨n - 0x40, by omega⟩
  else if h : 0x60 ≤ n ∧ n ≤ 0x79 then .rxf ⟨n - 0x60, by omega⟩
  else .reserved

/-- The host register space map (R61). Every address not listed there is reserved. -/
def regOf (a : Byte) : Reg :=
  match a.toNat with
  | 0x00 => .op
  | 0x01 => .status
  | 0x02 => .errCode
  | 0x03 => .errInfo
  | 0x04 => .vmask
  | 0x05 => .txcnt
  | 0x06 => .rxcnt
  | 0x07 => .csum
  | 0x08 => .addr
  | 0x09 => .cmd
  | 0x0A => .plen
  | 0x0B => .width
  | 0x0C => .val 0
  | 0x0D => .val 1
  | 0x0E => .val 2
  | 0x0F => .val 3
  | n    => regOfHigh n

end Sys2Proof.Machine
end

