-- ==== Sys2Proof/Machine/Flags.lean ====
section
/-! DEFINITION. Every flag computation: the validation mask and its reason, the codes of ERRCODE, and the byte STATUS
(spec 00_scope.md R12; 10_state.md R35, R36, R38; 60_exceptions.md R170). -/

namespace Sys2Proof.Machine

/-- A mask from its four checks, each true when it fails: bit 0 start byte, bit 1 address, bit 2 command, bit 3 checksum
(R12, R38). -/
def maskOf (start address command sum : Bool) : BitVec 4 :=
  BitVec.ofBool sum ++ BitVec.ofBool command ++ BitVec.ofBool address ++ BitVec.ofBool start

/-- `vmask(f)`: which of the four checks of an outgoing frame fail (R12, R114). -/
def validationMask (allowed : CommandSet) (f : Vector Byte 26) : BitVec 4 :=
  maskOf (f[0] != 0xAA) (f[1] == 0xFF) (!allowed.admits f[2]) (f[25] != checksum (bytesAt f 0 25))

/-- `reason(m)`: 0 for an empty mask, else 1 more than the index of the lowest set bit (R12). -/
def reason (m : BitVec 4) : Byte :=
  if m[0] then 1 else if m[1] then 2 else if m[2] then 3 else if m[3] then 4 else 0

/-- `validate_incoming`: the received buffer is exactly 26 bytes (R117). -/
def incomingLengthOk (received : Byte) : Bool := received == 26

/-- The code of an error in ERRCODE[2:0] (R170). -/
def ErrCode.code : ErrCode → BitVec 3
  | .noError          => 0
  | .invalidFrame     => 1
  | .payloadTooLong   => 2
  | .responseLength   => 3
  | .unsupportedWidth => 4
  | .valueOutOfRange  => 5
  | .ioError          => 6
  | .illegalOperation => 7

/-- The value of PHASE in STATUS[5:4] (R35, R40). -/
def Phase.code : Phase → BitVec 2
  | .idle => 0
  | .tx   => 1
  | .rx   => 2

/-- A byte of STATUS from its fields, bit 7 first: 0, 0, PHASE, OVR, ERR, DONE, BUSY (R35). -/
def statusOf (phase : Phase) (ovr err done busy : Bool) : Byte :=
  (0 : BitVec 2) ++ phase.code ++ BitVec.ofBool ovr ++ BitVec.ofBool err ++ BitVec.ofBool done ++ BitVec.ofBool busy

/-- STATUS as it is read (R160). -/
def statusByte (s : State) : Byte := statusOf s.phase s.ovr s.err s.done s.busy

end Sys2Proof.Machine
end

