-- ==== Sys2Proof/Machine/Ops.lean ====
section
/-! DEFINITION. The named operations over the state: the host port's read and write of one register, the start and the two
completions of every operation, the exchange's start and end, the next input, and reset (spec 43 R160, R161, R164, R165;
60 R181; 42 R133; 70 R200). -/

namespace Sys2Proof.Machine

/-- What a register reads as (R160). -/
def readReg (r : Reg) (s : State) : Byte :=
  match r with
  | .op       => s.xop
  | .status   => statusByte s
  | .errCode  => s.errCode.code.setWidth 8
  | .errInfo  => s.errInfo
  | .vmask    => s.vmask.setWidth 8
  | .txcnt    => s.txcnt
  | .rxcnt    => s.rxcnt
  | .csum     => s.csum
  | .addr     => s.addr
  | .cmd      => s.cmd
  | .plen     => s.plen
  | .width    => s.width
  | .val k    => valByte s.val k
  | .ib i     => s.ib[i]
  | .pl i     => s.pl[i]
  | .txf i    => s.txf[i]
  | .rxf i    => s.rxf[i]
  | .reserved => 0x00

/-- The byte `HostRead(a)` returns (R160). -/
def hostRead (a : Byte) (s : State) : Byte := readReg (regOf a) s

/-- A write of one register while idle: the RW-idle registers take the byte, the read-only ones and the reserved addresses
ignore it (R39, R161). A write to OP stores nothing here: it starts an operation (`hostWrite`). -/
def writeReg (r : Reg) (v : Byte) (s : State) : State :=
  match r with
  | .rxcnt => { s with rxcnt := v }
  | .addr  => { s with addr := v }
  | .cmd   => { s with cmd := v }
  | .plen  => { s with plen := v }
  | .width => { s with width := v }
  | .val k => { s with val := setValByte s.val k v }
  | .ib i  => { s with ib := s.ib.set i v }
  | .pl i  => { s with pl := s.pl.set i v }
  | .txf i => { s with txf := s.txf.set i v }
  | .rxf i => { s with rxf := s.rxf.set i v }
  | .op | .status | .errCode | .errInfo | .vmask | .txcnt | .csum | .reserved => s

/-- `start()`: XOP takes the word, the status of the last operation is cleared, OVR is not touched (R164). -/
def startOp (w : Byte) (s : State) : State :=
  { s with xop := w, done := false, err := false, errCode := .noError, errInfo := 0x00, vmask := 0 }

/-- `done()`: completion without error (R165). -/
def completeOk (s : State) : State := { s with done := true }

/-- `raise E(info)`: error completion, the block's trap entry (R181). -/
def raiseError (e : ErrCode) (info : Byte) (s : State) : State :=
  { s with errCode := e, errInfo := info, err := true, done := true }

/-- `begin_exchange()` (R133). -/
def beginExchange (s : State) : State :=
  { s with txcnt := 0, rxcnt := 0, busy := true, phase := .tx }

/-- `PHASE <- IDLE; STATUS.BUSY <- 0`: the end of an exchange, for whatever reason (R135, R137, R138, R139). -/
def endExchange (s : State) : State := { s with phase := .idle, busy := false }

/-- Build TXF from ADDR, CMD and a payload operand, or raise the operand's or the builder's error with TXF unchanged; then
go on with the rest of the operation (R111, R112, R131). Those errors carry no detail (R170). -/
def buildThen (p : Except ErrCode (List Byte)) (rest : State → State) (s : State) : State :=
  match p with
  | .error e => raiseError e 0 s
  | .ok payload =>
    match buildFrame s.addr s.cmd payload with
    | .error e => raiseError e 0 s
    | .ok f => rest { s with txf := putBytes s.txf 0 f }

/-- Validate TXF: VMASK takes the mask; a failing check raises InvalidFrame with the first reason, else the rest of the
operation runs (R114, R132). -/
def validateThen (rest : State → State) (s : State) : State :=
  let m := validationMask s.cmdAllowed s.txf
  let s1 := { s with vmask := m }
  if m ≠ 0 then raiseError .invalidFrame (reason m) s1 else rest s1

/-- Every register of the block at its reset value (R47, R200). What is not state of the block stays: CMD_ALLOWED, the
coming inputs, and what has already left the block (R201; log 10). -/
def resetBlock (s : State) : State :=
  { State.reset with
    cmdAllowed := s.cmdAllowed, inputs := s.inputs, drawn := s.drawn, wire := s.wire, readLog := s.readLog }

/-- The input of this step and the state without it: the first listed one, or a free one when none is listed (log 1, 2). -/
def nextInput (s : State) : Input × State :=
  match s.inputs with
  | i :: rest => (i, { s with inputs := rest })
  | [] => (Config.freeInput s.drawn, { s with drawn := s.drawn + 1 })

end Sys2Proof.Machine
end

