-- ==== Sys2Proof/Machine/FrameCodec.lean ====
section
/-! DEFINITION. The frame codec operations BUILD, CSUM, VOUT and VIN (spec 41_frame_codec.md R112, R113, R116, R117). -/

namespace Sys2Proof.Machine

/-- BUILD: TXF takes the frame of ADDR, CMD and `PL[0..PLEN-1]`; it does not validate (R112). -/
def execBuild (s : State) : Host.Outcome State Fault Refusal :=
  let s1 := startOp 0x03 s
  .next (buildThen (.ok (payloadOperand s1)) completeOk s1)

/-- CSUM: the checksum of the selected buffer goes to the register CSUM; the word is 0x04 or 0x14 (R113). -/
def execCsum (buf : Buffer) (s : State) : Host.Outcome State Fault Refusal :=
  let s1 := startOp (match buf with | .txf => 0x04 | .rxf => 0x14) s
  .next (completeOk { s1 with csum := checksum (checksumOperand buf s1) })

/-- VOUT: validate TXF (R116). -/
def execVout (s : State) : Host.Outcome State Fault Refusal :=
  .next (validateThen completeOk (startOp 0x05 s))

/-- VIN: the received buffer must be exactly 26 bytes; the error's detail is RXCNT (R117). -/
def execVin (s : State) : Host.Outcome State Fault Refusal :=
  let s1 := startOp 0x06 s
  if incomingLengthOk s1.rxcnt then .next (completeOk s1)
  else .next (raiseError .responseLength s1.rxcnt s1)

end Sys2Proof.Machine
end

