-- ==== Sys2Proof/Machine/HostControl.lean ====
section
/-! DEFINITION. CLR and the illegal operation word (spec 43_host_access_and_control.md R162, R163). A meaning is the whole
step of an OP write accepted with BUSY = 0 (R164), its own `start()` included. -/

namespace Sys2Proof.Machine

/-- CLR: the status and the overrun flag are cleared; DONE stays 0 (R162). -/
def execClr (s : State) : Host.Outcome State Fault Refusal :=
  .next { startOp 0x00 s with ovr := false }

/-- An illegal word `w`: IllegalOperation with the word as its detail, nothing else (R163). -/
def execIllegal (w : Byte) (s : State) : Host.Outcome State Fault Refusal :=
  .next (raiseError .illegalOperation w (startOp w s))

end Sys2Proof.Machine
end

