-- ==== Sys2Proof/Machine/IntegerCodec.lean ====
section
/-! DEFINITION. The integer codec operations ENC and DEC (spec 40_integer_codec.md R102, R103). -/

namespace Sys2Proof.Machine

/-- ENC: VAL encoded at width WIDTH goes to `IB[0..WIDTH-1]`; the other bytes of IB are unchanged (R102). -/
def execEnc (s : State) : Host.Outcome State Fault Refusal :=
  let s1 := startOp 0x01 s
  match encodedOperand s1 with
  | .error e => .next (raiseError e 0 s1)
  | .ok b => .next (completeOk { s1 with ib := putBytes s1.ib 0 b })

/-- DEC: `IB[0..WIDTH-1]` decoded goes to all 32 bits of VAL (R103). -/
def execDec (s : State) : Host.Outcome State Fault Refusal :=
  let s1 := startOp 0x02 s
  match decodedOperand s1 with
  | .error e => .next (raiseError e 0 s1)
  | .ok v => .next (completeOk { s1 with val := BitVec.ofNat 32 v })

end Sys2Proof.Machine
end

