-- ==== Sys2Proof/Machine/Transport.lean ====
section
/-! DEFINITION. The command transport: the issue step of SEND, SENDI and GETI (spec 42_command_transport.md R140 to R142) and
the steps of an exchange (R134 to R139). -/

namespace Sys2Proof.Machine

/-- Build, validate, start the exchange: the issue step the three operations share (R131 to R133). -/
def issue (p : Except ErrCode (List Byte)) (s : State) : State :=
  buildThen p (validateThen beginExchange) s

/-- SEND: one exchange with the payload in PL (R140). -/
def execSend (s : State) : Host.Outcome State Fault Refusal :=
  let s1 := startOp 0x07 s
  .next (issue (.ok (payloadOperand s1)) s1)

/-- SENDI: one exchange whose payload is VAL encoded at width WIDTH (R141). -/
def execSendi (s : State) : Host.Outcome State Fault Refusal :=
  let s1 := startOp 0x08 s
  .next (issue (encodedOperand s1) s1)

/-- GETI: one exchange with the empty payload; the width is checked before anything is built or sent (R142). -/
def execGeti (s : State) : Host.Outcome State Fault Refusal :=
  let s1 := startOp 0x09 s
  .next (issue (emptyOperand s1) s1)

/-- `TxPut(TXF[TXCNT])` and the count; the 26th byte ends the TX phase (R134). -/
def onTxAccept (s : State) : Host.Outcome State Fault Refusal :=
  if h : s.txcnt.toNat < 26 then
    .next { s with
      wire := s.wire ++ [s.txf[s.txcnt.toNat]]
      txcnt := s.txcnt + 1
      phase := if s.txcnt + 1 = 26 then .rx else s.phase }
  else .fault .txOffsetBeyondFrame

/-- The write failed: IOError with detail 1 (R135). -/
def onTxErr (s : State) : Host.Outcome State Fault Refusal :=
  .next (raiseError .ioError 1 (endExchange s))

/-- `complete_exchange()`: the response is 26 bytes long; only GETI (XOP = 0x09) decodes it (R138). -/
def completeExchange (s : State) : Host.Outcome State Fault Refusal :=
  let s1 := endExchange s
  if s1.xop = 0x09 then
    match responseInteger s1 with
    | .ok v => .next (completeOk { s1 with val := BitVec.ofNat 32 v })
    | .error _ => .fault .completionWidthUnsupported
  else .next (completeOk s1)

/-- A byte of the response goes to RXF[RXCNT]; the 26th completes the exchange (R136). -/
def onRxByte (b : Byte) (s : State) : Host.Outcome State Fault Refusal :=
  if h : s.rxcnt.toNat < 26 then
    let s1 := { s with rxf := s.rxf.set s.rxcnt.toNat b, rxcnt := s.rxcnt + 1 }
    if s1.rxcnt = 26 then completeExchange s1 else .next s1
  else .fault .rxOffsetBeyondFrame

/-- The read timed out: ResponseLengthError with the bytes received as its detail (R137). -/
def onRxTimeout (s : State) : Host.Outcome State Fault Refusal :=
  .next (raiseError .responseLength s.rxcnt (endExchange s))

/-- The read failed: IOError with detail 2 (R139). -/
def onRxErr (s : State) : Host.Outcome State Fault Refusal :=
  .next (raiseError .ioError 2 (endExchange s))

/-- The TX phase on the stream's answer; without one it waits (R64, R134, R135). -/
def txStep (a : Option TxAnswer) (s : State) : Host.Outcome State Fault Refusal :=
  match a with
  | none => .next s
  | some .accept => onTxAccept s
  | some .err => onTxErr s

/-- The RX phase on the stream's answer; without one it waits (R65, R136, R137, R139). -/
def rxStep (a : Option RxAnswer) (s : State) : Host.Outcome State Fault Refusal :=
  match a with
  | none => .next s
  | some (.byte b) => onRxByte b s
  | some .timeout => onRxTimeout s
  | some .err => onRxErr s

/-- The stream's signals are heeded only in their own phase; outside it they leave no trace (R64, R65, R179). -/
def streamStep (g : StreamSignals) (s : State) : Host.Outcome State Fault Refusal :=
  match s.phase with
  | .idle => .next s
  | .tx => txStep g.txAnswer s
  | .rx => rxStep g.rxAnswer s

end Sys2Proof.Machine
end

