-- ==== Sys2Proof/Machine/Dispatch.lean ====
section
/-! DEFINITION. One arm for each operation of the opcode table (spec 30_encoding.md R88). -/

namespace Sys2Proof.Machine

def exec (i : Instr) (s : State) : Host.Outcome State Fault Refusal :=
  match i with
  | .clr => Sys2Proof.Machine.execClr s
  | .enc => Sys2Proof.Machine.execEnc s
  | .dec => Sys2Proof.Machine.execDec s
  | .build => Sys2Proof.Machine.execBuild s
  | .csum buf => Sys2Proof.Machine.execCsum buf s
  | .vout => Sys2Proof.Machine.execVout s
  | .vin => Sys2Proof.Machine.execVin s
  | .send => Sys2Proof.Machine.execSend s
  | .sendi => Sys2Proof.Machine.execSendi s
  | .geti => Sys2Proof.Machine.execGeti s

end Sys2Proof.Machine
end

