-- ==== Sys2Proof/Machine/HostPort.lean ====
section
/-! DEFINITION. The host port: an operation started by a write to OP, HostWrite, HostRead, and the whole transition of the
block on one input (spec 43_host_access_and_control.md R160, R161, R164; 70_reset_and_hazards.md R200). -/

namespace Sys2Proof.Machine

/-- A write of the word `w` to OP accepted with BUSY = 0: decode it and run it in this step (R34, R92, R164). -/
def opWrite (w : Byte) (s : State) : Host.Outcome State Fault Refusal :=
  match decodeWord w with
  | .ok i => exec i s
  | .error _ => execIllegal w s

/-- `HostWrite(a, v)`: dropped and flagged while BUSY, whatever the address (R161). -/
def hostWrite (a v : Byte) (s : State) : Host.Outcome State Fault Refusal :=
  if s.busy then .next { s with ovr := true }
  else if regOf a = .op then opWrite v s
  else .next (writeReg (regOf a) v s)

/-- `HostRead(a)`: the byte goes to the host, and the block does not change (R68, R160). -/
def hostReadStep (a : Byte) (s : State) : State := { s with readLog := s.readLog ++ [(a, hostRead a s)] }

/-- With `rst` asserted the block is in the reset state whatever else arrives: writes and stream signals are ignored, reads
return reset values (R200). -/
def resetStep (act : Act) (s : State) : State :=
  match act with
  | .hostRead a => hostReadStep a (resetBlock s)
  | .quiet | .hostWrite _ _ | .stream _ => resetBlock s

/-- What the block does on an access or the stream's signals while `rst` is not asserted (R13). -/
def actStep (act : Act) (s : State) : Host.Outcome State Fault Refusal :=
  match act with
  | .quiet => .next s
  | .hostRead a => .next (hostReadStep a s)
  | .hostWrite a v => hostWrite a v s
  | .stream g => streamStep g s

/-- The block's transition on one input; `rst` goes over everything (R180 d). -/
def inputStep (i : Input) (s : State) : Host.Outcome State Fault Refusal :=
  if i.rst then .next (resetStep i.act s) else actStep i.act s

end Sys2Proof.Machine
end

