-- ==== Sys2Proof/Machine/Step.lean ====
section
/-! DEFINITION. One step of the machine: one input, one transition (spec 00_scope.md R11, R13), and how an operation word is
placed so that the next step runs it. -/

namespace Sys2Proof.Machine

/-- One step: take the next input, make the block's transition on it. -/
def step (s : State) : Host.Outcome State Fault Refusal :=
  inputStep (nextInput s).1 (nextInput s).2

/-- The state in which the next step is the OP write of the word whose bits are `w`, accepted because the block is idle: the
write stands first among the coming inputs, and PHASE and BUSY are those of an idle block (R34, R161; log 7). -/
def State.withFetchWord (s : State) (nbits w : Nat) : State :=
  { s with
    phase := .idle
    busy := false
    inputs := .opWord (BitVec.ofNat 8 (w % 2 ^ nbits)) :: s.inputs }

end Sys2Proof.Machine
end

