-- ==== Sys2Proof/Machine/Ports.lean ====
section
/-! DEFINITION. The block's output ports as functions of the state and of `rst` (spec 10_state.md R46; 70 R200). -/

namespace Sys2Proof.Machine

/-- `tx_valid`: 1 exactly while PHASE is TX; 0 while `rst` is asserted (R46, R200). -/
def txValid (rst : Bool) (s : State) : Bool := !rst && s.phase == .tx

/-- `tx_data`: `TXF[TXCNT]` while PHASE is TX; otherwise the port carries no byte (R46). -/
def txData (rst : Bool) (s : State) : Option Byte :=
  if txValid rst s then s.txf.toList[s.txcnt.toNat]? else none

/-- `rx_ready`: 1 exactly while PHASE is RX; 0 while `rst` is asserted (R46, R200). -/
def rxReady (rst : Bool) (s : State) : Bool := !rst && s.phase == .rx

/-- The level outputs `busy`, `done` and `err`: copies of STATUS (R46, R179). -/
def levelOutputs (s : State) : Bool × Bool × Bool := (s.busy, s.done, s.err)

/-- The response payload window `RP[0..21] = RXF[3..24]` (R31). -/
def payloadWindow (s : State) : List Byte := bytesAt s.rxf 3 22

end Sys2Proof.Machine
end

