-- ==== Sys2Proof/Safety.lean ====
section
/-! DEFINITION. What counts as a safe run, and the terms the statements use: the invariants of spec 10_state.md R42 and of an
exchange, the layout of a frame by its offsets (30_encoding.md R80), and which registers an operation may write (R95). -/

namespace Sys2Proof.Machine

/-- A safe step: the machine goes on (60_exceptions.md R170: "no abort, no halt"). -/
def Runs (s : State) : Prop := ∃ t, step s = .next t

/-- The state a step answers, if it answers one. -/
def stateOf (o : Host.Outcome State Fault Refusal) : Option State :=
  match o with
  | .next t => some t
  | .fault _ | .refused _ => none

/-- The invariants R42 lists about STATUS, the error registers and the counters. Its last lines (VMASK[7:4], ERRCODE[7:3] and
STATUS[7:6] are 0) hold by the types of the fields. -/
structure StatusInv (s : State) : Prop where
  busy_iff_phase : s.busy = true ↔ s.phase ≠ .idle
  not_busy_and_done : ¬ (s.busy = true ∧ s.done = true)
  done_of_err : s.err = true → s.done = true
  code_iff_err : s.errCode ≠ .noError ↔ s.err = true
  txcnt_le : s.txcnt.toNat ≤ 26
  tx_offset : s.phase = .tx → s.txcnt.toNat ≤ 25
  rx_offset : s.phase = .rx → s.txcnt = 26 ∧ s.rxcnt.toNat ≤ 25
  mask_iff_invalid : s.vmask ≠ 0 ↔ s.errCode = .invalidFrame
  info_of_mask : s.vmask ≠ 0 → s.errInfo = reason s.vmask

/-- What holds while an exchange is in progress: it was started by SEND, SENDI or GETI (R34, R35), GETI's width was checked
(R142), no byte is received before the whole request is sent (R133, R135), and the frame being sent has passed every outgoing
check (R132). -/
structure ExchangeInv (s : State) : Prop where
  started_by : s.busy = true → s.xop = 0x07 ∨ s.xop = 0x08 ∨ s.xop = 0x09
  width_checked : s.busy = true → s.xop = 0x09 → widthSupported s.width.toNat = true
  unread_in_tx : s.phase = .tx → s.rxcnt = 0
  frame_valid : s.busy = true → validationMask s.cmdAllowed s.txf = 0

/-- The invariant every step keeps. -/
structure Inv (s : State) : Prop where
  status : StatusInv s
  exchange : ExchangeInv s

/-- While an exchange is in progress the last TXCNT bytes on the wire are `TXF[0..TXCNT-1]` (R134). -/
def WireInv (s : State) : Prop :=
  s.busy = true → s.txf.toList.take s.txcnt.toNat <:+ s.wire

/-- What ERRINFO holds for each error code (R37, R170); for ResponseLengthError the received length is not 26. -/
def ErrInfoInv (s : State) : Prop :=
  match s.errCode with
  | .noError | .payloadTooLong | .unsupportedWidth | .valueOutOfRange => s.errInfo = 0
  | .invalidFrame => 1 ≤ s.errInfo.toNat ∧ s.errInfo.toNat ≤ 4
  | .responseLength => s.errInfo ≠ 26
  | .ioError => s.errInfo = 1 ∨ s.errInfo = 2
  | .illegalOperation => s.errInfo = s.xop

/-- The stream events an exchange can still take before it is over, 52 at its start (42_command_transport.md R146). -/
def eventsLeft (s : State) : Nat :=
  match s.phase with
  | .idle => 0
  | .tx => (26 - s.txcnt.toNat) + 26
  | .rx => 26 - s.rxcnt.toNat

/-- The stream answers in the current phase (R64, R65). -/
def Answered (g : StreamSignals) (s : State) : Prop :=
  (s.phase = .tx ∧ g.txAnswer.isSome = true) ∨ (s.phase = .rx ∧ g.rxAnswer.isSome = true)

/-- `run` is a run of the block under the inputs `env`, one input a step (R13, R70). -/
def IsRun (env : Nat → Input) (run : Nat → State) : Prop :=
  ∀ n, inputStep (env n) (run n) = .next (run (n + 1))

/-- The stream's answer arrives in step `n` (R64, R65). -/
def AnsweredAt (env : Nat → Input) (run : Nat → State) (n : Nat) : Prop :=
  ∃ g, env n = ⟨false, .stream g⟩ ∧ Answered g (run n)

/-- The fairness premise TX_LIVE of R211: in the TX phase `TxAccept` or `TxErr` eventually occurs, unless the phase is left
otherwise. -/
def TxLive (env : Nat → Input) (run : Nat → State) : Prop :=
  ∀ n, (run n).phase = .tx → ∃ m, n ≤ m ∧ ((run m).phase ≠ .tx ∨ AnsweredAt env run m)

/-- The liveness of the read (R66): in the RX phase one of `RxByte`, `RxTimeout`, `RxErr` eventually occurs, unless the phase is
left otherwise. -/
def RxLive (env : Nat → Input) (run : Nat → State) : Prop :=
  ∀ n, (run n).phase = .rx → ∃ m, n ≤ m ∧ ((run m).phase ≠ .rx ∨ AnsweredAt env run m)

/-- The exact sum of the bytes at offsets 0 to 24 of a frame (R85, R110). -/
def frameSum (f : Vector Byte 26) : Nat :=
  ∑ i : Fin 25, (f[i.val]'(Nat.lt_trans i.isLt (by decide))).toNat

/-- `f` is the frame with address `a`, command `c` and the 22 payload bytes `p`, offset by offset (R80 to R85). -/
structure IsFrame (f : Vector Byte 26) (a c : Byte) (p : Fin 22 → Byte) : Prop where
  start : f[0] = 0xAA
  address : f[1] = a
  command : f[2] = c
  payload : ∀ i : Fin 22, f[3 + i.val]'(by omega) = p i
  sum : f[25].toNat = frameSum f % 256

/-- The 22 payload bytes BUILD and SEND lay out: `PL[0..PLEN-1]`, then zeros (R84). -/
def paddedPl (s : State) (i : Fin 22) : Byte := if i.val < s.plen.toNat then s.pl[i] else 0x00

/-- The 22 payload bytes SENDI lays out: the first WIDTH bytes of VAL, the least significant first, then zeros (R86, R141). -/
def paddedVal (s : State) (i : Fin 22) : Byte :=
  if i.val < s.width.toNat then s.val.extractLsb' (8 * i.val) 8 else 0x00

/-- What an operation's word and its success leave in XOP, STATUS and the error registers; nothing else differs from `s`
(R164, R165). -/
def afterOk (w : Byte) (s : State) : State :=
  { s with xop := w, done := true, err := false, errCode := .noError, errInfo := 0x00, vmask := 0 }

/-- What an operation's word and its error leave in XOP, STATUS and the error registers, with VMASK 0; nothing else differs
from `s` (R164, R181, R182). -/
def afterError (w : Byte) (e : ErrCode) (info : Byte) (s : State) : State :=
  { s with xop := w, done := true, err := true, errCode := e, errInfo := info, vmask := 0 }

/-- The state at the start of an exchange of the operation with the word `w` and the outgoing frame `f` (R133, R164): the
block is busy in the TX phase with both counters 0, and nothing else differs from `s`. -/
def afterIssue (w : Byte) (f : Vector Byte 26) (s : State) : State :=
  { s with
    xop := w, done := false, err := false, errCode := .noError, errInfo := 0x00, vmask := 0
    txf := f, txcnt := 0, rxcnt := 0, busy := true, phase := .tx }

/-- The unsigned integer in the first `w` of four bytes, the least significant first, extended with zeros (R86). -/
def littleEndian (w : Nat) (b0 b1 b2 b3 : Byte) : Value :=
  if w = 1 then b0.setWidth 32
  else if w = 2 then (b1 ++ b0).setWidth 32
  else b3 ++ b2 ++ b1 ++ b0

/-- WIDTH is 1, 2 or 4 (R25). -/
abbrev WidthOk (s : State) : Prop := s.width = 1 ∨ s.width = 2 ∨ s.width = 4

/-- ADDR and CMD pass the outgoing checks (R82, R83). -/
abbrev TargetOk (s : State) : Prop := s.addr ≠ 0xFF ∧ s.cmdAllowed.admits s.cmd = true

/-- The mask of a frame just built: only bit 1 (address) and bit 2 (command) can be set (R132). -/
def targetMask (s : State) : BitVec 4 :=
  maskOf false (s.addr == 0xFF) (!s.cmdAllowed.admits s.cmd) false

/-- An address a host write stores to while idle: the class RW-idle (R20, R39, R61). -/
abbrev Writable (a : Byte) : Prop :=
  a = 0x06 ∨ (0x08 ≤ a.toNat ∧ a.toNat ≤ 0x13) ∨ (0x20 ≤ a.toNat ∧ a.toNat ≤ 0x35) ∨ (0x40 ≤ a.toNat ∧ a.toNat ≤ 0x59)
    ∨ (0x60 ≤ a.toNat ∧ a.toNat ≤ 0x79)

/-- The addresses of the registers every operation writes: XOP, STATUS, ERRCODE, ERRINFO, VMASK (R20, R95). -/
abbrev StatusAddress (a : Byte) : Prop := a.toNat ≤ 0x04

/-- The addresses an operation may write beside those in the step of its OP write (R95). -/
def ResultAddress (i : Instr) (a : Byte) : Prop :=
  match i with
  | .clr | .vout | .vin => False
  | .enc => 0x10 ≤ a.toNat ∧ a.toNat ≤ 0x13
  | .dec => 0x0C ≤ a.toNat ∧ a.toNat ≤ 0x0F
  | .build => 0x40 ≤ a.toNat ∧ a.toNat ≤ 0x59
  | .csum _ => a = 0x07
  | .send | .sendi | .geti => a = 0x05 ∨ a = 0x06 ∨ (0x40 ≤ a.toNat ∧ a.toNat ≤ 0x59)

/-- Which errors the step of an operation's OP write can report (R178; the rest of an exchange's errors come later). -/
def CanReport (i : Instr) (e : ErrCode) : Prop :=
  match i with
  | .clr | .csum _ => e = .noError
  | .enc => e = .noError ∨ e = .unsupportedWidth ∨ e = .valueOutOfRange
  | .dec => e = .noError ∨ e = .unsupportedWidth
  | .build => e = .noError ∨ e = .payloadTooLong
  | .vout => e = .noError ∨ e = .invalidFrame
  | .vin => e = .noError ∨ e = .responseLength
  | .send => e = .noError ∨ e = .payloadTooLong ∨ e = .invalidFrame
  | .sendi => e = .noError ∨ e = .unsupportedWidth ∨ e = .valueOutOfRange ∨ e = .invalidFrame
  | .geti => e = .noError ∨ e = .unsupportedWidth ∨ e = .invalidFrame

end Sys2Proof.Machine
end

