-- ==== Sys2Proof/Certificates/Slice0/Obligations.lean ====
section
/-! DEFINITION. The statements for the provers. Each docstring names the rule of spec/ it formalises; a statement about every
state holds in states no run reaches too, or has an invariant as its premise. -/

open Sys2Proof Sys2Proof.Machine

/-! ### The encoding -/

/-- R92: the decoding of every word by its fields `w[7:5]`, `w[4]`, `w[3:0]`, case by case in the order of the rule. -/
def Obligations.WordDecodesByFields : Prop :=
  ∀ w : Byte,
    (w.toNat / 32 ≠ 0 → ∃ e, decodeWord w = .error e) ∧
    (w.toNat / 32 = 0 → w.toNat % 16 = 4 →
      decodeWord w = .ok (.csum (if w.toNat / 16 % 2 = 0 then .txf else .rxf))) ∧
    (w.toNat / 32 = 0 → w.toNat % 16 ≠ 4 → w.toNat / 16 % 2 = 1 → ∃ e, decodeWord w = .error e) ∧
    (w.toNat / 32 = 0 → w.toNat % 16 ≠ 4 → w.toNat / 16 % 2 = 0 → w.toNat % 16 ≤ 9 →
      (decodeWord w).toOption =
        [Instr.clr, .enc, .dec, .build, .csum .txf, .vout, .vin, .send, .sendi, .geti][w.toNat % 16]?) ∧
    (w.toNat / 32 = 0 → w.toNat % 16 ≠ 4 → w.toNat / 16 % 2 = 0 → 9 < w.toNat % 16 →
      ∃ e, decodeWord w = .error e)

/-- R88: a word selects the row whose `match` it has under the row's `mask`; the legal words are exactly the eleven listed. -/
def Obligations.WordSelectsItsRow : Prop :=
  (∀ (w : Byte) (i : Instr),
    w &&& i.rowMask = i.rowMatch ↔ ∃ j, decodeWord w = .ok j ∧ j.rowMatch = i.rowMatch ∧ j.rowMask = i.rowMask) ∧
  (∀ w : Byte, (∃ i, decodeWord w = .ok i) ↔
    w ∈ [0x00, 0x01, 0x02, 0x03, 0x04, 0x14, 0x05, 0x06, 0x07, 0x08, (0x09 : Byte)])

/-- R89, R163: a word with a bit of 7:5 set, with `opc` in 0xA..0xF, or with `b` = 1 and `opc` other than 4 (there are 245)
written to OP while idle completes at once with IllegalOperation and the word as its detail; nothing else changes. -/
def Obligations.IllegalWordReportsIllegalOperation : Prop :=
  (∀ (w : Byte) (s : State),
    (w.toNat / 32 ≠ 0 ∨ 10 ≤ w.toNat % 16 ∨ (w.toNat / 16 % 2 = 1 ∧ w.toNat % 16 ≠ 4)) →
    s.busy = false →
      hostWrite 0x00 w s = .next (afterError w .illegalOperation w s)) ∧
  ((List.range 256).filter fun n =>
    decide (n / 32 ≠ 0 ∨ 10 ≤ n % 16 ∨ (n / 16 % 2 = 1 ∧ n % 16 ≠ 4))).length = 245

/-- Decode and encode agree, both ways: a sequence of bytes decodes to `i` with `rest` left over exactly when it is the
encoding of `i` followed by `rest`. So no bit of an operation word is dropped and no two words stand for one operation. -/
def Obligations.DecodeAndEncodeAgree : Prop :=
  ∀ (bytes rest : List Byte) (i : Instr), decode bytes = .ok (i, rest) ↔ bytes = encode i ++ rest

/-- A step is the transition on its input, and that transition is the named one of each kind of input: a step with a listed
input makes the transition on it, with none listed on a free one; without `rst` a quiet input changes nothing, a host write is
`hostWrite` and the stream's signals are `streamStep` (a host read is HostReadReturnsRegisters, `rst` is
RstResetsFromAnyState). So a step runs the decoded operation: if the next input is a write to OP of a word that decodes to `i`
and the block is not busy, the step is exec of `i`, that input taken away. The list of inputs and the free input are the
model's (log 1, log 2). -/
def Obligations.StepRunsDecodedOperation : Prop :=
  (∀ (s : State) (i : Input) (rest : List Input),
    s.inputs = i :: rest → step s = inputStep i { s with inputs := rest }) ∧
  (∀ s : State, s.inputs = [] →
    step s = inputStep (Config.freeInput s.drawn) { s with drawn := s.drawn + 1 }) ∧
  (∀ (s : State) (a v : Byte) (g : StreamSignals),
    inputStep ⟨false, .quiet⟩ s = .next s ∧
    inputStep ⟨false, .hostWrite a v⟩ s = hostWrite a v s ∧
    inputStep ⟨false, .stream g⟩ s = streamStep g s) ∧
  ∀ (s : State) (w : Byte) (i : Instr) (rest : List Input),
    s.inputs = Input.opWord w :: rest → s.busy = false → decodeWord w = .ok i →
      step s = exec i { s with inputs := rest }

/-! ### The operations -/

/-- R162: CLR clears the status of the last operation and OVR, leaves DONE 0 and every other register; while BUSY its word is
dropped and only OVR changes. It is the only operation that does not set DONE: of all words accepted at OP only its own leaves
DONE 0, but for those that begin an exchange, and the step that ends an exchange sets DONE. It is the only way besides reset to
clear OVR. -/
def Obligations.ClrClearsStatus : Prop :=
  decodeWord 0x00 = .ok .clr ∧
  ∀ s : State,
    exec .clr s =
      .next { s with xop := 0x00, done := false, err := false, errCode := .noError, errInfo := 0x00, vmask := 0,
                     ovr := false } ∧
    (s.busy = true → hostWrite 0x00 0x00 s = .next { s with ovr := true }) ∧
    (∀ (w : Byte) (t : State), s.busy = false → hostWrite 0x00 w s = .next t → t.done = false →
      w = 0x00 ∨ t.busy = true) ∧
    (∀ (i : Input) (t : State), i.rst = false → s.busy = true → inputStep i s = .next t → t.busy = false →
      t.done = true) ∧
    (∀ (i : Input) (t : State), s.ovr = true → inputStep i s = .next t → t.ovr = false →
      i.rst = true ∨ (s.busy = false ∧ i.act = .hostWrite 0x00 0x00))

/-- R102: ENC by width and range: the two errors with IB unchanged, else `IB[i] <- VAL[8i+7 : 8i]` for `i < WIDTH` with the
other bytes of IB and every other register unchanged; running it twice gives the same result. -/
def Obligations.EncPacksLittleEndian : Prop :=
  decodeWord 0x01 = .ok .enc ∧
  ∀ s : State,
    (¬ WidthOk s → exec .enc s = .next (afterError 0x01 .unsupportedWidth 0x00 s)) ∧
    (WidthOk s → 2 ^ (8 * s.width.toNat) ≤ s.val.toNat →
      exec .enc s = .next (afterError 0x01 .valueOutOfRange 0x00 s)) ∧
    (WidthOk s → s.val.toNat < 2 ^ (8 * s.width.toNat) →
      ∃ b : Vector Byte 4, exec .enc s = .next { afterOk 0x01 s with ib := b } ∧
        ∀ i : Fin 4, b[i] = if i.val < s.width.toNat then s.val.extractLsb' (8 * i.val) 8 else s.ib[i]) ∧
    (∀ t, exec .enc s = .next t → exec .enc t = .next t)

/-- R103: DEC by width: the error with VAL unchanged, else all 32 bits of VAL take the little-endian integer in
`IB[0..WIDTH-1]`, and every other register is unchanged. -/
def Obligations.DecUnpacksLittleEndian : Prop :=
  decodeWord 0x02 = .ok .dec ∧
  ∀ s : State,
    (¬ WidthOk s → exec .dec s = .next (afterError 0x02 .unsupportedWidth 0x00 s)) ∧
    (WidthOk s → exec .dec s =
      .next { afterOk 0x02 s with val := littleEndian s.width.toNat s.ib[0] s.ib[1] s.ib[2] s.ib[3] })

/-- R112: BUILD by PLEN: PayloadTooLong with TXF unchanged, else TXF takes the frame of ADDR, CMD and `PL[0..PLEN-1]`, byte by
byte with its checksum, and every other register is unchanged. -/
def Obligations.BuildAssemblesFrame : Prop :=
  decodeWord 0x03 = .ok .build ∧
  ∀ s : State,
    (22 < s.plen.toNat → exec .build s = .next (afterError 0x03 .payloadTooLong 0x00 s)) ∧
    (s.plen.toNat ≤ 22 →
      ∃ f : Vector Byte 26, exec .build s = .next { afterOk 0x03 s with txf := f } ∧
        IsFrame f s.addr s.cmd (paddedPl s))

/-- R113: CSUM takes the sum of the first 25 bytes of the selected buffer modulo 256, and no other register changes. -/
def Obligations.CsumSumsSelectedBuffer : Prop :=
  decodeWord 0x04 = .ok (.csum .txf) ∧ decodeWord 0x14 = .ok (.csum .rxf) ∧
  ∀ s : State,
    exec (.csum .txf) s = .next { afterOk 0x04 s with csum := BitVec.ofNat 8 (frameSum s.txf) } ∧
    exec (.csum .rxf) s = .next { afterOk 0x14 s with csum := BitVec.ofNat 8 (frameSum s.rxf) }

/-- R116: VOUT reports the mask of the four checks of TXF, each bit by its own check, and the first failing one in the order
start byte, address, command, checksum; no other register changes, and a second VOUT gives the same state. -/
def Obligations.VoutReportsFailedChecks : Prop :=
  decodeWord 0x05 = .ok .vout ∧
  ∀ (s : State) (m : BitVec 4),
    m[0] = (s.txf[0] != 0xAA) → m[1] = (s.txf[1] == 0xFF) → m[2] = !s.cmdAllowed.admits s.txf[2] →
    m[3] = (s.txf[25].toNat != frameSum s.txf % 256) →
      (m = 0 → exec .vout s = .next (afterOk 0x05 s)) ∧
      (m ≠ 0 → exec .vout s = .next
        { afterError 0x05 .invalidFrame (if m[0] then (1 : Byte) else if m[1] then 2 else if m[2] then 3 else 4) s with
          vmask := m }) ∧
      (∀ t, exec .vout s = .next t → exec .vout t = .next t)

/-- R117: VIN succeeds exactly when RXCNT is 26; otherwise ResponseLengthError with RXCNT as its detail. -/
def Obligations.VinChecksReceivedLength : Prop :=
  decodeWord 0x06 = .ok .vin ∧
  ∀ s : State,
    (s.rxcnt = 26 → exec .vin s = .next (afterOk 0x06 s)) ∧
    (s.rxcnt ≠ 26 → exec .vin s = .next (afterError 0x06 .responseLength s.rxcnt s))

/-- The step of SEND's OP write (42_command_transport.md section 3): PayloadTooLong with TXF unchanged; InvalidFrame with the
rejected frame in TXF, the mask in VMASK and the counters untouched; else the exchange starts with the frame in TXF. -/
def Obligations.SendIssuesExchange : Prop :=
  decodeWord 0x07 = .ok .send ∧
  ∀ s : State,
    (22 < s.plen.toNat → exec .send s = .next (afterError 0x07 .payloadTooLong 0x00 s)) ∧
    (s.plen.toNat ≤ 22 → ¬ TargetOk s →
      ∃ f : Vector Byte 26, exec .send s = .next
          { afterError 0x07 .invalidFrame (if s.addr = 0xFF then (2 : Byte) else 3) s with txf := f, vmask := targetMask s } ∧
        IsFrame f s.addr s.cmd (paddedPl s)) ∧
    (s.plen.toNat ≤ 22 → TargetOk s →
      ∃ f : Vector Byte 26, exec .send s = .next (afterIssue 0x07 f s) ∧ IsFrame f s.addr s.cmd (paddedPl s))

/-- The step of SENDI's OP write (42_command_transport.md section 3): the width, then the range, then the frame's checks; else
the exchange starts with VAL little-endian at the start of the payload. -/
def Obligations.SendiIssuesExchange : Prop :=
  decodeWord 0x08 = .ok .sendi ∧
  ∀ s : State,
    (¬ WidthOk s → exec .sendi s = .next (afterError 0x08 .unsupportedWidth 0x00 s)) ∧
    (WidthOk s → 2 ^ (8 * s.width.toNat) ≤ s.val.toNat →
      exec .sendi s = .next (afterError 0x08 .valueOutOfRange 0x00 s)) ∧
    (WidthOk s → s.val.toNat < 2 ^ (8 * s.width.toNat) → ¬ TargetOk s →
      ∃ f : Vector Byte 26, exec .sendi s = .next
          { afterError 0x08 .invalidFrame (if s.addr = 0xFF then (2 : Byte) else 3) s with txf := f, vmask := targetMask s } ∧
        IsFrame f s.addr s.cmd (paddedVal s)) ∧
    (WidthOk s → s.val.toNat < 2 ^ (8 * s.width.toNat) → TargetOk s →
      ∃ f : Vector Byte 26, exec .sendi s = .next (afterIssue 0x08 f s) ∧ IsFrame f s.addr s.cmd (paddedVal s))

/-- The step of GETI's OP write (42_command_transport.md section 3): the width is checked before anything is built; then the
frame's checks; else the exchange starts with 22 zero payload bytes, and VAL is not touched. -/
def Obligations.GetiIssuesExchange : Prop :=
  decodeWord 0x09 = .ok .geti ∧
  ∀ s : State,
    (¬ WidthOk s → exec .geti s = .next (afterError 0x09 .unsupportedWidth 0x00 s)) ∧
    (WidthOk s → ¬ TargetOk s →
      ∃ f : Vector Byte 26, exec .geti s = .next
          { afterError 0x09 .invalidFrame (if s.addr = 0xFF then (2 : Byte) else 3) s with txf := f, vmask := targetMask s } ∧
        IsFrame f s.addr s.cmd fun _ => 0x00) ∧
    (WidthOk s → TargetOk s →
      ∃ f : Vector Byte 26, exec .geti s = .next (afterIssue 0x09 f s) ∧ IsFrame f s.addr s.cmd fun _ => 0x00)

/-! ### What the operations leave unchanged -/

/-- The frame of every operation over the whole host register space (30_encoding.md section 2, the table of operand forms): a
HostRead of every address but those of the status registers and the operation's results returns what it returned before;
ADDR, CMD, PLEN, WIDTH, PL and RXF are unchanged, PHASE and BUSY too but for the three exchange operations, OVR but for CLR;
nothing reaches the wire, and CMD_ALLOWED and the coming inputs are unchanged. -/
def Obligations.OperationsLeaveOtherRegisters : Prop :=
  ∀ (i : Instr) (s t : State), exec i s = .next t →
    (∀ a : Byte, ¬ StatusAddress a → ¬ ResultAddress i a → hostRead a t = hostRead a s) ∧
    (t.addr = s.addr ∧ t.cmd = s.cmd ∧ t.plen = s.plen ∧ t.width = s.width ∧ t.pl = s.pl ∧ t.rxf = s.rxf) ∧
    (i ≠ .send → i ≠ .sendi → i ≠ .geti → t.busy = s.busy ∧ t.phase = s.phase) ∧
    (i ≠ .clr → t.ovr = s.ovr) ∧
    (t.cmdAllowed = s.cmdAllowed ∧ t.inputs = s.inputs ∧ t.drawn = s.drawn ∧ t.wire = s.wire ∧ t.readLog = s.readLog)

/-- What the step of every operation's OP write reports: XOP is the operation's word; ERR, ERRCODE and DONE agree; and the error
is one the table of 60_exceptions.md section 1 gives the operation. -/
def Obligations.OperationsReportOwnErrors : Prop :=
  ∀ (i : Instr) (s t : State), exec i s = .next t →
    t.xop = encodeWord i ∧ CanReport i t.errCode ∧
    (t.err = true ↔ t.errCode ≠ .noError) ∧ (t.err = true → t.done = true) ∧
    (t.vmask ≠ 0 ↔ t.errCode = .invalidFrame) ∧ (t.vmask ≠ 0 → t.errInfo = reason t.vmask)

/-! ### The exchange -/

/-- The byte the block offers in the TX phase is the byte that leaves it (42_command_transport.md section 2): on TxAccept
`TXF[TXCNT]` goes to the wire, TXCNT counts it, and the 26th ends the TX phase; nothing else changes. The wire is the model's
record of TxPut (log 4). -/
def Obligations.TxAcceptSendsNextByte : Prop :=
  ∀ (s : State) (g : StreamSignals) (h : s.txcnt.toNat < 26),
    s.phase = .tx → g.txErr = false → g.txReady = true →
      txData false s = some s.txf[s.txcnt.toNat] ∧
      streamStep g s = .next
        { s with
          wire := s.wire ++ [s.txf[s.txcnt.toNat]]
          txcnt := s.txcnt + 1
          phase := if s.txcnt = 25 then .rx else .tx }

/-- R135: on TxErr in the TX phase, whatever else is signalled, the exchange ends with IOError, detail 1; TXCNT, RXCNT and RXF
are unchanged, so under the invariants TXCNT is 0 to 25 and RXCNT is 0. -/
def Obligations.TxErrEndsExchange : Prop :=
  ∀ (s : State) (g : StreamSignals), s.phase = .tx → g.txErr = true →
    streamStep g s = .next
      { s with phase := .idle, busy := false, errCode := .ioError, errInfo := 1, err := true, done := true } ∧
    (Inv s → ∀ t, streamStep g s = .next t → t.txcnt.toNat ≤ 25 ∧ t.rxcnt = 0)

/-- R136, R138: on RxByte in the RX phase the byte goes to RXF[RXCNT] and RXCNT counts it; the 26th completes the exchange,
and only for GETI (XOP = 0x09) VAL takes the little-endian integer in `RXF[3 .. 3+WIDTH-1]`. No content is examined. -/
def Obligations.RxByteStoresAndCompletes : Prop :=
  ∀ (s : State) (g : StreamSignals) (h : s.rxcnt.toNat < 26),
    s.phase = .rx → g.rxErr = false → g.rxTimeout = false → g.rxValid = true →
      (s.rxcnt ≠ 25 → streamStep g s =
        .next { s with rxf := s.rxf.set s.rxcnt.toNat g.rxData, rxcnt := s.rxcnt + 1 }) ∧
      (s.rxcnt = 25 → s.xop ≠ 0x09 → streamStep g s =
        .next { s with rxf := s.rxf.set 25 g.rxData, rxcnt := 26, phase := .idle, busy := false, done := true }) ∧
      (s.rxcnt = 25 → s.xop = 0x09 → WidthOk s → streamStep g s =
        .next { s with
          rxf := s.rxf.set 25 g.rxData, rxcnt := 26, phase := .idle, busy := false, done := true
          val := littleEndian s.width.toNat s.rxf[3] s.rxf[4] s.rxf[5] s.rxf[6] })

/-- R137: on RxTimeout in the RX phase, a byte offered at the same moment not taken, the exchange ends with
ResponseLengthError and RXCNT as its detail, under the invariants 0 to 25; RXCNT, RXF and VAL are unchanged. -/
def Obligations.RxTimeoutEndsExchange : Prop :=
  ∀ (s : State) (g : StreamSignals), s.phase = .rx → g.rxErr = false → g.rxTimeout = true →
    streamStep g s = .next
      { s with phase := .idle, busy := false, errCode := .responseLength, errInfo := s.rxcnt, err := true, done := true } ∧
    (Inv s → ∀ t, streamStep g s = .next t → t.errInfo.toNat ≤ 25)

/-- R139: on RxErr in the RX phase, whatever else is signalled, the exchange ends with IOError, detail 2; RXCNT, RXF and VAL
are unchanged. -/
def Obligations.RxErrEndsExchange : Prop :=
  ∀ (s : State) (g : StreamSignals), s.phase = .rx → g.rxErr = true →
    streamStep g s = .next
      { s with phase := .idle, busy := false, errCode := .ioError, errInfo := 2, err := true, done := true }

/-- Outside its phase a stream signal is ignored and leaves no trace (20_memory.md section 2, 60_exceptions.md section 2):
everything while idle, the RX signals in the TX phase, the TX signals in the RX phase. -/
def Obligations.SignalsOutsideTheirPhaseIgnored : Prop :=
  ∀ (s : State) (g : StreamSignals),
    (s.phase = .idle → streamStep g s = .next s) ∧
    (s.phase = .tx → g.txErr = false → g.txReady = false → streamStep g s = .next s) ∧
    (s.phase = .rx → g.rxErr = false → g.rxTimeout = false → g.rxValid = false → streamStep g s = .next s)

/-- Every answer of the stream takes an exchange one event nearer its end, of which there are at most 52
(42_command_transport.md section 2, the control flow of an exchange). -/
def Obligations.AnswersShortenTheExchange : Prop :=
  (∀ s : State, eventsLeft s ≤ 52) ∧
  ∀ (s t : State) (g : StreamSignals), Inv s → Answered g s → streamStep g s = .next t →
    eventsLeft t < eventsLeft s ∧ (eventsLeft t = 0 → t.busy = false ∧ t.done = true)

/-- Every exchange ends (70_reset_and_hazards.md section 3, the open parameter TX_LIVE): on every run that starts in a state of
the invariants, under any inputs, if the read is live and TX_LIVE holds, the block is idle again and again. Both premises are
on the stream; without TX_LIVE nothing is claimed. -/
def Obligations.ExchangeEndsUnderTxLive : Prop :=
  ∀ (env : Nat → Input) (run : Nat → State), IsRun env run → Inv (run 0) → TxLive env run → RxLive env run →
    ∀ n, ∃ m, n ≤ m ∧ (run m).busy = false

/-- A whole exchange (42_command_transport.md section 2): from the start of an exchange, 26 TxAccept and any 26 response bytes
put exactly TXF[0..25] on the wire in order, leave the response in RXF unjudged, and complete without error; GETI decodes, SEND
and SENDI do not. The list of inputs and the wire are the model's (log 1, log 4). -/
def Obligations.ExchangeDeliversResponse : Prop :=
  ∀ (s : State) (resp : Vector Byte 26) (rest : List Input),
    Inv s → s.phase = .tx → s.txcnt = 0 → s.rxcnt = 0 →
    s.inputs = List.replicate 26 Input.txAccept ++ resp.toList.map Input.rxByte ++ rest →
      Host.Core.run Sys2Proof.core 52 s = .next
        { s with
          inputs := rest, wire := s.wire ++ s.txf.toList, txcnt := 26, rxcnt := 26, rxf := resp
          phase := .idle, busy := false, done := true
          val := if s.xop = 0x09 then littleEndian s.width.toNat resp[3] resp[4] resp[5] resp[6] else s.val }

/-! ### The host port -/

/-- The map of HostRead, address by address, with the numbers of ERRCODE and PHASE (10_state.md sections 3 and 4,
60_exceptions.md section 1), and that a HostRead changes no state of the block at any time
(43_host_access_and_control.md section 1). The log of returned bytes is the model's (log 4). -/
def Obligations.HostReadReturnsRegisters : Prop :=
  ∀ s : State,
    (hostRead 0x00 s = s.xop ∧ hostRead 0x03 s = s.errInfo ∧
      hostRead 0x04 s = s.vmask.setWidth 8 ∧ hostRead 0x05 s = s.txcnt ∧ hostRead 0x06 s = s.rxcnt ∧
      hostRead 0x07 s = s.csum ∧ hostRead 0x08 s = s.addr ∧ hostRead 0x09 s = s.cmd ∧ hostRead 0x0A s = s.plen ∧
      hostRead 0x0B s = s.width) ∧
    ((hostRead 0x01 s)[0] = s.busy ∧ (hostRead 0x01 s)[1] = s.done ∧ (hostRead 0x01 s)[2] = s.err ∧
      (hostRead 0x01 s)[3] = s.ovr ∧
      (hostRead 0x01 s).extractLsb' 4 2 = (match s.phase with | .idle => 0 | .tx => 1 | .rx => (2 : BitVec 2)) ∧
      (hostRead 0x01 s)[6] = false ∧ (hostRead 0x01 s)[7] = false) ∧
    (hostRead 0x02 s = match s.errCode with
      | .noError => 0
      | .invalidFrame => 1
      | .payloadTooLong => 2
      | .responseLength => 3
      | .unsupportedWidth => 4
      | .valueOutOfRange => 5
      | .ioError => 6
      | .illegalOperation => 7) ∧
    (∀ k : Fin 4, hostRead (BitVec.ofNat 8 (0x0C + k.val)) s = s.val.extractLsb' (8 * k.val) 8) ∧
    (∀ i : Fin 4, hostRead (BitVec.ofNat 8 (0x10 + i.val)) s = s.ib[i]) ∧
    (∀ i : Fin 22, hostRead (BitVec.ofNat 8 (0x20 + i.val)) s = s.pl[i]) ∧
    (∀ i : Fin 26, hostRead (BitVec.ofNat 8 (0x40 + i.val)) s = s.txf[i]) ∧
    (∀ i : Fin 26, hostRead (BitVec.ofNat 8 (0x60 + i.val)) s = s.rxf[i]) ∧
    (∀ a : Byte, (0x14 ≤ a.toNat ∧ a.toNat ≤ 0x1F) ∨ (0x36 ≤ a.toNat ∧ a.toNat ≤ 0x3F) ∨
      (0x5A ≤ a.toNat ∧ a.toNat ≤ 0x5F) ∨ 0x7A ≤ a.toNat → hostRead a s = 0x00) ∧
    (∀ a : Byte, inputStep (.read a) s = .next { s with readLog := s.readLog ++ [(a, hostRead a s)] })

/-- The output ports (10_state.md section 6) and the payload window (10_state.md section 2): `tx_valid` is 1 exactly in the TX
phase, `rx_ready` exactly in the RX phase, neither while `rst` is asserted; `tx_data` is `TXF[TXCNT]` in the TX phase and
carries no byte outside it (the model's choice, log 13); `busy`, `done`, `err` are copies of STATUS; the window is `RXF[3..24]`. -/
def Obligations.PortsShowState : Prop :=
  ∀ s : State,
    (txValid false s = true ↔ s.phase = .tx) ∧ (rxReady false s = true ↔ s.phase = .rx) ∧
    (txValid true s = false ∧ rxReady true s = false) ∧
    (∀ h : s.txcnt.toNat < 26, s.phase = .tx → txData false s = some s.txf[s.txcnt.toNat]) ∧
    (∀ rst : Bool, txValid rst s = false → txData rst s = none) ∧
    levelOutputs s = (s.busy, s.done, s.err) ∧
    (payloadWindow s).length = 22 ∧ ∀ i : Fin 22, (payloadWindow s)[i.val]? = some (s.rxf[3 + i.val]'(by omega))

/-- R161: a HostWrite while BUSY only sets OVR, whatever the address; while idle a write to OP starts the operation its word
decodes to, a write to an RW-idle address stores exactly the byte and nothing else, and any other write changes nothing. -/
def Obligations.HostWriteStoresOneByte : Prop :=
  ∀ (s : State) (a v : Byte),
    (s.busy = true → hostWrite a v s = .next { s with ovr := true }) ∧
    (s.busy = false → a = 0x00 → ∀ i, decodeWord v = .ok i → hostWrite a v s = exec i s) ∧
    (s.busy = false → a = 0x00 → ∀ e, decodeWord v = .error e →
      hostWrite a v s = .next (afterError v .illegalOperation v s)) ∧
    (s.busy = false → Writable a → ∃ t, hostWrite a v s = .next t ∧
      hostRead a t = v ∧ (∀ b : Byte, b ≠ a → hostRead b t = hostRead b s) ∧
      ((a = 0x06 → t.rxcnt = v) ∧ (a = 0x08 → t.addr = v) ∧ (a = 0x09 → t.cmd = v) ∧ (a = 0x0A → t.plen = v) ∧
        (a = 0x0B → t.width = v) ∧
        (∀ k : Fin 4, a = BitVec.ofNat 8 (0x0C + k.val) → t.val.extractLsb' (8 * k.val) 8 = v) ∧
        (∀ i : Fin 4, a = BitVec.ofNat 8 (0x10 + i.val) → t.ib[i] = v) ∧
        (∀ i : Fin 22, a = BitVec.ofNat 8 (0x20 + i.val) → t.pl[i] = v) ∧
        (∀ i : Fin 26, a = BitVec.ofNat 8 (0x40 + i.val) → t.txf[i] = v) ∧
        (∀ i : Fin 26, a = BitVec.ofNat 8 (0x60 + i.val) → t.rxf[i] = v)) ∧
      t = { s with
        rxcnt := t.rxcnt, addr := t.addr, cmd := t.cmd, plen := t.plen, width := t.width, val := t.val
        ib := t.ib, pl := t.pl, txf := t.txf, rxf := t.rxf }) ∧
    (s.busy = false → a ≠ 0x00 → ¬ Writable a → hostWrite a v s = .next s)

/-- While an exchange is in progress no operand changes but by `rst` (10_state.md section 4, the invariants it marks derived):
ADDR, CMD, PLEN, WIDTH, IB, PL and TXF keep their values in every step, and VAL changes only in the step that completes a
GETI. -/
def Obligations.OperandsStableWhileBusy : Prop :=
  ∀ (i : Input) (s t : State), s.busy = true → i.rst = false → inputStep i s = .next t →
    (t.addr = s.addr ∧ t.cmd = s.cmd ∧ t.plen = s.plen ∧ t.width = s.width ∧ t.ib = s.ib ∧ t.pl = s.pl ∧
      t.txf = s.txf ∧ t.xop = s.xop ∧ t.csum = s.csum) ∧
    (t.val ≠ s.val → s.xop = 0x09 ∧ t.busy = false ∧ t.done = true)

/-! ### Reset -/

/-- R47: the value of every register after reset; so a HostRead returns 0xFF at ADDR's address and 0x00 at every other. With the
notes of its table: CMD is not in the default set of R6, TXF is not a valid frame under it, VIN and the four operations that
use WIDTH fail. -/
def Obligations.ResetValues : Prop :=
  (State.reset.addr = 0xFF ∧ State.reset.cmd = 0x00 ∧ State.reset.plen = 0x00 ∧ State.reset.width = 0x00 ∧
    State.reset.val = 0x00000000 ∧ (∀ i : Fin 4, State.reset.ib[i] = 0x00) ∧ (∀ i : Fin 22, State.reset.pl[i] = 0x00) ∧
    (∀ i : Fin 26, State.reset.txf[i] = 0x00) ∧ (∀ i : Fin 26, State.reset.rxf[i] = 0x00) ∧
    State.reset.rxcnt = 0x00 ∧ State.reset.txcnt = 0x00 ∧ State.reset.csum = 0x00 ∧ State.reset.xop = 0x00 ∧
    State.reset.busy = false ∧ State.reset.done = false ∧ State.reset.err = false ∧ State.reset.ovr = false ∧
    State.reset.phase = .idle ∧ State.reset.errCode = .noError ∧ State.reset.errInfo = 0x00 ∧ State.reset.vmask = 0) ∧
  (∀ a : Byte, hostRead a State.reset = if a = 0x08 then 0xFF else 0x00) ∧
  Config.defaultCommands.admits State.reset.cmd = false ∧
  validationMask Config.defaultCommands State.reset.txf = 0b0101 ∧
  exec .vin State.reset = .next (afterError 0x06 .responseLength 0x00 State.reset) ∧
  ∀ i ∈ [Instr.enc, .dec, .sendi, .geti],
    exec i State.reset = .next (afterError (encodeWord i) .unsupportedWidth 0x00 State.reset)

/-- `rst` from any state and with anything else arriving (70_reset_and_hazards.md section 1): every register of the block takes
its reset value, nothing is offered or accepted on the streams, what left the block stays on the wire, and a HostRead returns
the reset value. The last five fields of the state are the model's (log 1, 2, 3, 4, 10). -/
def Obligations.RstResetsFromAnyState : Prop :=
  ∀ (s : State) (act : Act), txValid true s = false ∧ rxReady true s = false ∧
    ∃ t, inputStep ⟨true, act⟩ s = .next t ∧
      { t with
        cmdAllowed := State.reset.cmdAllowed, inputs := State.reset.inputs, drawn := State.reset.drawn
        wire := State.reset.wire, readLog := State.reset.readLog } = State.reset ∧
      t.cmdAllowed = s.cmdAllowed ∧ t.inputs = s.inputs ∧ t.drawn = s.drawn ∧ t.wire = s.wire ∧
      ((∀ a, act ≠ .hostRead a) → t.readLog = s.readLog) ∧
      (∀ a, act = .hostRead a → t.readLog = s.readLog ++ [(a, hostRead a State.reset)])

/-! ### The pure functions -/

/-- R110: for 25 bytes the checksum is their sum modulo 256; it equals an 8-bit accumulator that starts at 0 and drops the
carries; the order of addition does not matter; the exact sum is at most 6375. -/
def Obligations.ChecksumIsSumModulo256 : Prop :=
  ∀ s : List Byte, s.length = 25 →
    (checksum s).toNat = (s.map BitVec.toNat).sum % 256 ∧
    checksum s = s.foldl (· + ·) 0 ∧
    (∀ r : List Byte, s.Perm r → checksum r = checksum s) ∧
    (s.map BitVec.toNat).sum ≤ 6375

/-- The function encode over all naturals (40_integer_codec.md section 1): the width first, then the range, else `width` bytes
of which byte `i` is `(v div 2^(8i)) mod 256`. That the width is tested before the range is an inference the spec marks as its
own there (derived from how the range is defined). -/
def Obligations.EncodeFunctionOverNaturals : Prop :=
  ∀ v w : Nat,
    (w ≠ 1 → w ≠ 2 → w ≠ 4 → encodeInt v w = .error .unsupportedWidth) ∧
    (w = 1 ∨ w = 2 ∨ w = 4 → 2 ^ (8 * w) ≤ v → encodeInt v w = .error .valueOutOfRange) ∧
    (w = 1 ∨ w = 2 ∨ w = 4 → v < 2 ^ (8 * w) →
      ∃ b : List Byte, encodeInt v w = .ok b ∧ b.length = w ∧
        ∀ (i : Nat) (h : i < b.length), b[i].toNat = v / 2 ^ (8 * i) % 256)

/-- R101: decode over all byte sequences: the length must be 1, 2 or 4; the result is the sum of `s[i] * 2^(8i)`, at most
`2^(8 len) - 1`. -/
def Obligations.DecodeFunctionOverSequences : Prop :=
  ∀ s : List Byte,
    (s.length ≠ 1 → s.length ≠ 2 → s.length ≠ 4 → decodeInt s = .error .unsupportedWidth) ∧
    (s.length = 1 ∨ s.length = 2 ∨ s.length = 4 →
      decodeInt s = .ok (∑ i : Fin s.length, s[i].toNat * 2 ^ (8 * i.val)) ∧
      ∑ i : Fin s.length, s[i].toNat * 2 ^ (8 * i.val) ≤ 2 ^ (8 * s.length) - 1)

/-- The round trips of 40_integer_codec.md section 3 (in part marked derived there): decode undoes encode on every
representable value, encode undoes decode on every supported sequence, and ENC then DEC leave VAL as it was. -/
def Obligations.CodecRoundTrips : Prop :=
  (∀ v w : Nat, w = 1 ∨ w = 2 ∨ w = 4 → v < 2 ^ (8 * w) →
    ∃ b, encodeInt v w = .ok b ∧ decodeInt b = .ok v) ∧
  (∀ b : List Byte, b.length = 1 ∨ b.length = 2 ∨ b.length = 4 →
    ∃ v, decodeInt b = .ok v ∧ encodeInt v b.length = .ok b) ∧
  (∀ s : State, WidthOk s → s.val.toNat < 2 ^ (8 * s.width.toNat) →
    ∃ t u, exec .enc s = .next t ∧ exec .dec t = .next u ∧ u.val = s.val ∧ t.err = false ∧ u.err = false)

/-- BUILD, then VOUT (41_frame_codec.md section 2, "What a built frame always satisfies", marked derived there): the mask is that
of the address and the command alone, so VOUT succeeds exactly when the address is not 0xFF and the command is allowed. -/
def Obligations.BuiltFrameValidates : Prop :=
  ∀ s : State, s.plen.toNat ≤ 22 →
    ∃ t u, exec .build s = .next t ∧ exec .vout t = .next u ∧
      u.txf = t.txf ∧ u.vmask = targetMask s ∧ (u.err = false ↔ TargetOk s)

/-- A change of one byte at offsets 0..24 of a valid frame is caught by the checksum test (41_frame_codec.md section 5, marked
derived there). -/
def Obligations.SingleByteCorruptionCaught : Prop :=
  ∀ (set : CommandSet) (f : Vector Byte 26) (k : Fin 25) (b : Byte),
    validationMask set f = 0 → b ≠ f[k.val]'(by omega) →
      (validationMask set (f.set k.val b (by omega)))[3] = true

/-- The default command set of 00_scope.md section 3: 0x12 and 0x20 to 0x6C, 78 codes; the set is held in State by the model's
choice (log 3). -/
def Obligations.DefaultCommandSet : Prop :=
  (∀ c : Byte, Config.defaultCommands.admits c = true ↔ c = 0x12 ∨ (0x20 ≤ c.toNat ∧ c.toNat ≤ 0x6C)) ∧
  ((List.range 256).filter fun n => Config.defaultCommands.admits (BitVec.ofNat 8 n)).length = 78

/-! ### The whole machine -/

/-- CMD_ALLOWED is a constant of the block: no step changes it, whatever the input (00_scope.md section 3; held in State by the
model's choice, log 3). -/
def Obligations.CommandSetNeverChanges : Prop :=
  ∀ s t : State, step s = .next t → t.cmdAllowed = s.cmdAllowed

/-- The invariants hold at reset. -/
def Obligations.InvariantsHoldAtReset : Prop :=
  Inv State.reset ∧ WireInv State.reset ∧ ErrInfoInv State.reset

/-- Every step keeps the invariants of 10_state.md section 4 (marked derived there) together with what holds of a running
exchange: it was started by SEND, SENDI or GETI, and the frame it sends has passed every outgoing check. -/
def Obligations.StepKeepsInvariants : Prop :=
  ∀ s t : State, Inv s → step s = .next t → Inv t

/-- From every state that meets the invariants the machine goes on: no fault, no refusal (60_exceptions.md section 1). -/
def Obligations.MachineNeverStops : Prop :=
  ∀ s : State, Inv s → Runs s

/-- Every step keeps the wire in order: during an exchange the last TXCNT bytes on the wire are `TXF[0..TXCNT-1]`, and a step
puts at most one byte there, the one at offset TXCNT of a frame that passed every check (42_command_transport.md sections 1
and 2; the wire is the model's record of TxPut, log 4). -/
def Obligations.WireCarriesValidatedFrame : Prop :=
  ∀ s t : State, Inv s → WireInv s → step s = .next t →
    WireInv t ∧
    (t.wire = s.wire ∨
      (s.phase = .tx ∧ validationMask s.cmdAllowed s.txf = 0 ∧
        ∃ b, s.txf.toList[s.txcnt.toNat]? = some b ∧ t.wire = s.wire ++ [b]))

/-- Every step keeps ERRINFO the detail its error code calls for (10_state.md section 3, the table of details by ERRCODE). -/
def Obligations.ErrInfoFitsErrCode : Prop :=
  ∀ s t : State, Inv s → ErrInfoInv s → step s = .next t → ErrInfoInv t
end

