-- ==== Sys2Proof/Laws/Codec.lean ====
section
/-! SUPPORT. What the pure functions and the buffer forms answer: lengths, bytes by index, ranges
(spec 00_scope.md R10, R12; 40_integer_codec.md R105). -/

namespace Sys2Proof.Machine

theorem widthSupported_iff (w : Nat) : widthSupported w = true ↔ w = 1 ∨ w = 2 ∨ w = 4 := by
  simp [widthSupported, or_assoc]

/-! ### byte sequences in buffers -/

@[simp] theorem bytesAt_length {n : Nat} (buf : Vector Byte n) (off len : Nat) : (bytesAt buf off len).length = len := by
  simp [bytesAt]

theorem bytesAt_getElem {n : Nat} (buf : Vector Byte n) (off len i : Nat) (h : i < (bytesAt buf off len).length)
    (hn : off + i < n) : (bytesAt buf off len)[i] = buf[off + i] := by
  simp [bytesAt, List.getD_eq_getElem?_getD, hn]

theorem bytesAt_succ {n : Nat} (buf : Vector Byte n) (off len : Nat) (h : off < n) :
    bytesAt buf off (len + 1) = buf[off] :: bytesAt buf (off + 1) len := by
  simp only [bytesAt, List.range_succ_eq_map, List.map_cons, List.map_map]
  congr 1
  · simp [List.getD_eq_getElem?_getD, h]
  · refine List.map_congr_left fun i _ => ?_
    simp only [Function.comp]; congr 1; omega

theorem putBytes_inside {n : Nat} (buf : Vector Byte n) (off i : Nat) (b : List Byte) (hn : i < n)
    (h1 : off ≤ i) (h2 : i - off < b.length) : (putBytes buf off b)[i] = b[i - off] := by
  have h : off ≤ i ∧ i < off + b.length := ⟨h1, by omega⟩
  simp [putBytes, h, List.getD_eq_getElem?_getD, h2]

theorem putBytes_outside {n : Nat} (buf : Vector Byte n) (off i : Nat) (b : List Byte) (hn : i < n)
    (h : i < off ∨ off + b.length ≤ i) : (putBytes buf off b)[i] = buf[i] := by
  have h' : ¬ (off ≤ i ∧ i < off + b.length) := by omega
  simp [putBytes, h']

/-! ### the integer codec -/

@[simp] theorem leEncode_length (v w : Nat) : (leEncode v w).length = w := by simp [leEncode]

theorem leEncode_getElem (v w i : Nat) (h : i < (leEncode v w).length) :
    (leEncode v w)[i] = BitVec.ofNat 8 (v / 2 ^ (8 * i)) := by simp [leEncode]

theorem leEncode_succ (v w : Nat) : leEncode v (w + 1) = BitVec.ofNat 8 v :: leEncode (v / 256) w := by
  simp only [leEncode, List.range_succ_eq_map, List.map_cons, List.map_map]
  congr 1
  · simp
  · refine List.map_congr_left fun i _ => ?_
    simp only [Function.comp, Nat.div_div_eq_div_mul]
    congr 2
    rw [Nat.mul_succ, pow_add]; norm_num [mul_comm]

/-- `le_decode` as the sum R12 gives. -/
theorem leDecode_eq_sum (s : List Byte) : leDecode s = ∑ i : Fin s.length, (s[i]).toNat * 2 ^ (8 * i.val) := by
  induction s with
  | nil => simp [leDecode]
  | cons b s ih =>
    rw [leDecode, ih, Finset.mul_sum]
    simp only [List.length_cons, Fin.sum_univ_succ]
    congr 1
    · simp
    · refine Finset.sum_congr rfl fun i _ => ?_
      simp [Nat.mul_add, pow_add]
      ring

/-- Decoding cannot overflow: the value is below `2^(8 len)` (R105). -/
theorem leDecode_lt (s : List Byte) : leDecode s < 2 ^ (8 * s.length) := by
  induction s with
  | nil => simp [leDecode]
  | cons b s ih =>
    have hb := b.isLt
    rw [leDecode, List.length_cons, Nat.mul_add, pow_add]
    omega

/-! ### the checksum and the frame -/

@[simp] theorem checksum_toNat (s : List Byte) : (checksum s).toNat = (s.map BitVec.toNat).sum % 256 := by
  simp [checksum]

theorem frameBody_length (a c : Byte) (p : List Byte) (h : p.length ≤ 22) : (frameBody a c p).length = 25 := by
  simp [frameBody]; omega

theorem frame_length (a c : Byte) (p : List Byte) (h : p.length ≤ 22) : (frame a c p).length = 26 := by
  simp [frame, frameBody_length a c p h]

/-- `build` fails exactly on a payload longer than 22 bytes (R111). -/
theorem buildFrame_cases (a c : Byte) (p : List Byte) :
    (22 < p.length ∧ buildFrame a c p = .error .payloadTooLong) ∨
      (p.length ≤ 22 ∧ buildFrame a c p = .ok (frame a c p)) := by
  by_cases h : p.length ≤ 22
  · exact .inr ⟨h, if_neg (by omega)⟩
  · exact .inl ⟨by omega, if_pos (by omega)⟩

/-- `encode` tests the width first, then the range (R100). -/
theorem encodeInt_cases (v w : Nat) :
    (widthSupported w = false ∧ encodeInt v w = .error .unsupportedWidth) ∨
      (widthSupported w = true ∧ 2 ^ (8 * w) ≤ v ∧ encodeInt v w = .error .valueOutOfRange) ∨
      (widthSupported w = true ∧ v < 2 ^ (8 * w) ∧ encodeInt v w = .ok (leEncode v w)) := by
  cases hw : widthSupported w
  · exact .inl ⟨rfl, by simp [encodeInt, hw]⟩
  · by_cases hv : v < 2 ^ (8 * w)
    · exact .inr (.inr ⟨rfl, hv, by simp [encodeInt, hw, hv]⟩)
    · exact .inr (.inl ⟨rfl, by omega, by simp [encodeInt, hw]; omega⟩)

/-- `decode` fails exactly on an unsupported length (R101). -/
theorem decodeInt_cases (s : List Byte) :
    (widthSupported s.length = false ∧ decodeInt s = .error .unsupportedWidth) ∨
      (widthSupported s.length = true ∧ decodeInt s = .ok (leDecode s)) := by
  cases hw : widthSupported s.length <;> simp [decodeInt, hw]

/-! ### the codes -/

/-- The error codes are the eight values of three bits, each once (R170). -/
theorem ErrCode.code_injective (e f : ErrCode) (h : e.code = f.code) : e = f := by
  cases e <;> cases f <;> first | rfl | exact absurd h (by decide)

/-- The bits of a mask are its four checks. -/
theorem maskOf_bits (a b c d : Bool) :
    (maskOf a b c d)[0] = a ∧ (maskOf a b c d)[1] = b ∧ (maskOf a b c d)[2] = c ∧ (maskOf a b c d)[3] = d := by
  revert a b c d; decide

/-- A mask is empty exactly when no check fails. -/
theorem maskOf_eq_zero_iff (a b c d : Bool) :
    maskOf a b c d = 0 ↔ a = false ∧ b = false ∧ c = false ∧ d = false := by
  revert a b c d; decide

/-- Masks with the same four bits are equal. -/
theorem mask_ext (m k : BitVec 4) (h0 : m[0] = k[0]) (h1 : m[1] = k[1]) (h2 : m[2] = k[2]) (h3 : m[3] = k[3]) :
    m = k := by
  revert m k; decide

/-- The reason is that of the first failing check in the order start byte, address, command, checksum (R114). -/
theorem reason_maskOf (a b c d : Bool) :
    reason (maskOf a b c d) = if a then (1 : Byte) else if b then 2 else if c then 3 else if d then 4 else 0 := by
  revert a b c d; decide

/-- The reason of a mask that is not empty is 1 to 4. -/
theorem reason_range (m : BitVec 4) (h : m ≠ 0) : 1 ≤ (reason m).toNat ∧ (reason m).toNat ≤ 4 := by
  revert m; decide

/-- The fields of a byte of STATUS. -/
theorem statusOf_fields (p : Phase) (o e d b : Bool) :
    (statusOf p o e d b)[0] = b ∧ (statusOf p o e d b)[1] = d ∧ (statusOf p o e d b)[2] = e ∧
      (statusOf p o e d b)[3] = o ∧ (statusOf p o e d b).extractLsb' 4 2 = p.code ∧
      (statusOf p o e d b)[6] = false ∧ (statusOf p o e d b)[7] = false := by
  cases p <;> revert o e d b <;> decide

/-- The reason is 0 exactly for the empty mask (R12). -/
theorem reason_eq_zero_iff (m : BitVec 4) : reason m = 0 ↔ m = 0 := by
  revert m; decide

end Sys2Proof.Machine
end

