-- ==== Sys2Proof/Laws/Encoding.lean ====
section
/-! SUPPORT. The fields of an operation word and the word hold the same bits (spec 30_encoding.md R87). -/

namespace Sys2Proof

@[simp] theorem OpWord.toByte_ofByte (w : Byte) : (OpWord.ofByte w).toByte = w := by
  revert w; decide

@[simp] theorem OpWord.ofByte_toByte (f : OpWord) : OpWord.ofByte f.toByte = f := by
  obtain ⟨z, b, o⟩ := f
  revert z b o; decide

@[simp] theorem encode_length (i : Instr) : (encode i).length = 1 := rfl

/-- Decoding a nonempty sequence looks at its first byte alone. -/
theorem decode_cons (w : Byte) (rest : List Byte) :
    decode (w :: rest) = (decodeWord w).map fun i => (i, rest) := by
  simp only [decode]
  cases decodeWord w <;> rfl

@[simp] theorem decode_nil : decode [] = .error .noByte := rfl

/-- The checks of WellFormed accept exactly the words the decoder accepts. -/
theorem wellFormed_iff_decodes (w : Byte) :
    (OpWord.ofByte w).wellFormed = true ↔ (decodeWord w).isOk = true := by
  revert w; decide

end Sys2Proof
end

