-- ==== Sys2Proof/Laws/State.lean ====
section
/-! SUPPORT. One lemma for each field and each named update of the state, true by rfl. -/

namespace Sys2Proof.Machine

/-! ### `start()` (R164) -/

@[simp] theorem startOp_xop (w : Byte) (s : State) : (startOp w s).xop = w := rfl
@[simp] theorem startOp_busy (w : Byte) (s : State) : (startOp w s).busy = s.busy := rfl
@[simp] theorem startOp_done (w : Byte) (s : State) : (startOp w s).done = false := rfl
@[simp] theorem startOp_err (w : Byte) (s : State) : (startOp w s).err = false := rfl
@[simp] theorem startOp_ovr (w : Byte) (s : State) : (startOp w s).ovr = s.ovr := rfl
@[simp] theorem startOp_phase (w : Byte) (s : State) : (startOp w s).phase = s.phase := rfl
@[simp] theorem startOp_errCode (w : Byte) (s : State) : (startOp w s).errCode = .noError := rfl
@[simp] theorem startOp_errInfo (w : Byte) (s : State) : (startOp w s).errInfo = 0x00 := rfl
@[simp] theorem startOp_vmask (w : Byte) (s : State) : (startOp w s).vmask = 0 := rfl
@[simp] theorem startOp_txcnt (w : Byte) (s : State) : (startOp w s).txcnt = s.txcnt := rfl
@[simp] theorem startOp_rxcnt (w : Byte) (s : State) : (startOp w s).rxcnt = s.rxcnt := rfl
@[simp] theorem startOp_csum (w : Byte) (s : State) : (startOp w s).csum = s.csum := rfl
@[simp] theorem startOp_addr (w : Byte) (s : State) : (startOp w s).addr = s.addr := rfl
@[simp] theorem startOp_cmd (w : Byte) (s : State) : (startOp w s).cmd = s.cmd := rfl
@[simp] theorem startOp_plen (w : Byte) (s : State) : (startOp w s).plen = s.plen := rfl
@[simp] theorem startOp_width (w : Byte) (s : State) : (startOp w s).width = s.width := rfl
@[simp] theorem startOp_val (w : Byte) (s : State) : (startOp w s).val = s.val := rfl
@[simp] theorem startOp_ib (w : Byte) (s : State) : (startOp w s).ib = s.ib := rfl
@[simp] theorem startOp_pl (w : Byte) (s : State) : (startOp w s).pl = s.pl := rfl
@[simp] theorem startOp_txf (w : Byte) (s : State) : (startOp w s).txf = s.txf := rfl
@[simp] theorem startOp_rxf (w : Byte) (s : State) : (startOp w s).rxf = s.rxf := rfl
@[simp] theorem startOp_cmdAllowed (w : Byte) (s : State) : (startOp w s).cmdAllowed = s.cmdAllowed := rfl
@[simp] theorem startOp_inputs (w : Byte) (s : State) : (startOp w s).inputs = s.inputs := rfl
@[simp] theorem startOp_drawn (w : Byte) (s : State) : (startOp w s).drawn = s.drawn := rfl
@[simp] theorem startOp_wire (w : Byte) (s : State) : (startOp w s).wire = s.wire := rfl
@[simp] theorem startOp_readLog (w : Byte) (s : State) : (startOp w s).readLog = s.readLog := rfl

/-! ### `done()` (R165) -/

@[simp] theorem completeOk_xop (s : State) : (completeOk s).xop = s.xop := rfl
@[simp] theorem completeOk_busy (s : State) : (completeOk s).busy = s.busy := rfl
@[simp] theorem completeOk_done (s : State) : (completeOk s).done = true := rfl
@[simp] theorem completeOk_err (s : State) : (completeOk s).err = s.err := rfl
@[simp] theorem completeOk_ovr (s : State) : (completeOk s).ovr = s.ovr := rfl
@[simp] theorem completeOk_phase (s : State) : (completeOk s).phase = s.phase := rfl
@[simp] theorem completeOk_errCode (s : State) : (completeOk s).errCode = s.errCode := rfl
@[simp] theorem completeOk_errInfo (s : State) : (completeOk s).errInfo = s.errInfo := rfl
@[simp] theorem completeOk_vmask (s : State) : (completeOk s).vmask = s.vmask := rfl
@[simp] theorem completeOk_txcnt (s : State) : (completeOk s).txcnt = s.txcnt := rfl
@[simp] theorem completeOk_rxcnt (s : State) : (completeOk s).rxcnt = s.rxcnt := rfl
@[simp] theorem completeOk_csum (s : State) : (completeOk s).csum = s.csum := rfl
@[simp] theorem completeOk_addr (s : State) : (completeOk s).addr = s.addr := rfl
@[simp] theorem completeOk_cmd (s : State) : (completeOk s).cmd = s.cmd := rfl
@[simp] theorem completeOk_plen (s : State) : (completeOk s).plen = s.plen := rfl
@[simp] theorem completeOk_width (s : State) : (completeOk s).width = s.width := rfl
@[simp] theorem completeOk_val (s : State) : (completeOk s).val = s.val := rfl
@[simp] theorem completeOk_ib (s : State) : (completeOk s).ib = s.ib := rfl
@[simp] theorem completeOk_pl (s : State) : (completeOk s).pl = s.pl := rfl
@[simp] theorem completeOk_txf (s : State) : (completeOk s).txf = s.txf := rfl
@[simp] theorem completeOk_rxf (s : State) : (completeOk s).rxf = s.rxf := rfl
@[simp] theorem completeOk_cmdAllowed (s : State) : (completeOk s).cmdAllowed = s.cmdAllowed := rfl
@[simp] theorem completeOk_inputs (s : State) : (completeOk s).inputs = s.inputs := rfl
@[simp] theorem completeOk_drawn (s : State) : (completeOk s).drawn = s.drawn := rfl
@[simp] theorem completeOk_wire (s : State) : (completeOk s).wire = s.wire := rfl
@[simp] theorem completeOk_readLog (s : State) : (completeOk s).readLog = s.readLog := rfl

/-! ### `raise E(info)` (R181) -/

@[simp] theorem raiseError_xop (e : ErrCode) (x : Byte) (s : State) : (raiseError e x s).xop = s.xop := rfl
@[simp] theorem raiseError_busy (e : ErrCode) (x : Byte) (s : State) : (raiseError e x s).busy = s.busy := rfl
@[simp] theorem raiseError_done (e : ErrCode) (x : Byte) (s : State) : (raiseError e x s).done = true := rfl
@[simp] theorem raiseError_err (e : ErrCode) (x : Byte) (s : State) : (raiseError e x s).err = true := rfl
@[simp] theorem raiseError_ovr (e : ErrCode) (x : Byte) (s : State) : (raiseError e x s).ovr = s.ovr := rfl
@[simp] theorem raiseError_phase (e : ErrCode) (x : Byte) (s : State) : (raiseError e x s).phase = s.phase := rfl
@[simp] theorem raiseError_errCode (e : ErrCode) (x : Byte) (s : State) : (raiseError e x s).errCode = e := rfl
@[simp] theorem raiseError_errInfo (e : ErrCode) (x : Byte) (s : State) : (raiseError e x s).errInfo = x := rfl
@[simp] theorem raiseError_vmask (e : ErrCode) (x : Byte) (s : State) : (raiseError e x s).vmask = s.vmask := rfl
@[simp] theorem raiseError_txcnt (e : ErrCode) (x : Byte) (s : State) : (raiseError e x s).txcnt = s.txcnt := rfl
@[simp] theorem raiseError_rxcnt (e : ErrCode) (x : Byte) (s : State) : (raiseError e x s).rxcnt = s.rxcnt := rfl
@[simp] theorem raiseError_csum (e : ErrCode) (x : Byte) (s : State) : (raiseError e x s).csum = s.csum := rfl
@[simp] theorem raiseError_addr (e : ErrCode) (x : Byte) (s : State) : (raiseError e x s).addr = s.addr := rfl
@[simp] theorem raiseError_cmd (e : ErrCode) (x : Byte) (s : State) : (raiseError e x s).cmd = s.cmd := rfl
@[simp] theorem raiseError_plen (e : ErrCode) (x : Byte) (s : State) : (raiseError e x s).plen = s.plen := rfl
@[simp] theorem raiseError_width (e : ErrCode) (x : Byte) (s : State) : (raiseError e x s).width = s.width := rfl
@[simp] theorem raiseError_val (e : ErrCode) (x : Byte) (s : State) : (raiseError e x s).val = s.val := rfl
@[simp] theorem raiseError_ib (e : ErrCode) (x : Byte) (s : State) : (raiseError e x s).ib = s.ib := rfl
@[simp] theorem raiseError_pl (e : ErrCode) (x : Byte) (s : State) : (raiseError e x s).pl = s.pl := rfl
@[simp] theorem raiseError_txf (e : ErrCode) (x : Byte) (s : State) : (raiseError e x s).txf = s.txf := rfl
@[simp] theorem raiseError_rxf (e : ErrCode) (x : Byte) (s : State) : (raiseError e x s).rxf = s.rxf := rfl
@[simp] theorem raiseError_cmdAllowed (e : ErrCode) (x : Byte) (s : State) : (raiseError e x s).cmdAllowed = s.cmdAllowed := rfl
@[simp] theorem raiseError_inputs (e : ErrCode) (x : Byte) (s : State) : (raiseError e x s).inputs = s.inputs := rfl
@[simp] theorem raiseError_drawn (e : ErrCode) (x : Byte) (s : State) : (raiseError e x s).drawn = s.drawn := rfl
@[simp] theorem raiseError_wire (e : ErrCode) (x : Byte) (s : State) : (raiseError e x s).wire = s.wire := rfl
@[simp] theorem raiseError_readLog (e : ErrCode) (x : Byte) (s : State) : (raiseError e x s).readLog = s.readLog := rfl

/-! ### `begin_exchange()` (R133) -/

@[simp] theorem beginExchange_xop (s : State) : (beginExchange s).xop = s.xop := rfl
@[simp] theorem beginExchange_busy (s : State) : (beginExchange s).busy = true := rfl
@[simp] theorem beginExchange_done (s : State) : (beginExchange s).done = s.done := rfl
@[simp] theorem beginExchange_err (s : State) : (beginExchange s).err = s.err := rfl
@[simp] theorem beginExchange_ovr (s : State) : (beginExchange s).ovr = s.ovr := rfl
@[simp] theorem beginExchange_phase (s : State) : (beginExchange s).phase = .tx := rfl
@[simp] theorem beginExchange_errCode (s : State) : (beginExchange s).errCode = s.errCode := rfl
@[simp] theorem beginExchange_errInfo (s : State) : (beginExchange s).errInfo = s.errInfo := rfl
@[simp] theorem beginExchange_vmask (s : State) : (beginExchange s).vmask = s.vmask := rfl
@[simp] theorem beginExchange_txcnt (s : State) : (beginExchange s).txcnt = 0 := rfl
@[simp] theorem beginExchange_rxcnt (s : State) : (beginExchange s).rxcnt = 0 := rfl
@[simp] theorem beginExchange_csum (s : State) : (beginExchange s).csum = s.csum := rfl
@[simp] theorem beginExchange_addr (s : State) : (beginExchange s).addr = s.addr := rfl
@[simp] theorem beginExchange_cmd (s : State) : (beginExchange s).cmd = s.cmd := rfl
@[simp] theorem beginExchange_plen (s : State) : (beginExchange s).plen = s.plen := rfl
@[simp] theorem beginExchange_width (s : State) : (beginExchange s).width = s.width := rfl
@[simp] theorem beginExchange_val (s : State) : (beginExchange s).val = s.val := rfl
@[simp] theorem beginExchange_ib (s : State) : (beginExchange s).ib = s.ib := rfl
@[simp] theorem beginExchange_pl (s : State) : (beginExchange s).pl = s.pl := rfl
@[simp] theorem beginExchange_txf (s : State) : (beginExchange s).txf = s.txf := rfl
@[simp] theorem beginExchange_rxf (s : State) : (beginExchange s).rxf = s.rxf := rfl
@[simp] theorem beginExchange_cmdAllowed (s : State) : (beginExchange s).cmdAllowed = s.cmdAllowed := rfl
@[simp] theorem beginExchange_inputs (s : State) : (beginExchange s).inputs = s.inputs := rfl
@[simp] theorem beginExchange_drawn (s : State) : (beginExchange s).drawn = s.drawn := rfl
@[simp] theorem beginExchange_wire (s : State) : (beginExchange s).wire = s.wire := rfl
@[simp] theorem beginExchange_readLog (s : State) : (beginExchange s).readLog = s.readLog := rfl

/-! ### the end of an exchange (R135, R137, R138, R139) -/

@[simp] theorem endExchange_xop (s : State) : (endExchange s).xop = s.xop := rfl
@[simp] theorem endExchange_busy (s : State) : (endExchange s).busy = false := rfl
@[simp] theorem endExchange_done (s : State) : (endExchange s).done = s.done := rfl
@[simp] theorem endExchange_err (s : State) : (endExchange s).err = s.err := rfl
@[simp] theorem endExchange_ovr (s : State) : (endExchange s).ovr = s.ovr := rfl
@[simp] theorem endExchange_phase (s : State) : (endExchange s).phase = .idle := rfl
@[simp] theorem endExchange_errCode (s : State) : (endExchange s).errCode = s.errCode := rfl
@[simp] theorem endExchange_errInfo (s : State) : (endExchange s).errInfo = s.errInfo := rfl
@[simp] theorem endExchange_vmask (s : State) : (endExchange s).vmask = s.vmask := rfl
@[simp] theorem endExchange_txcnt (s : State) : (endExchange s).txcnt = s.txcnt := rfl
@[simp] theorem endExchange_rxcnt (s : State) : (endExchange s).rxcnt = s.rxcnt := rfl
@[simp] theorem endExchange_csum (s : State) : (endExchange s).csum = s.csum := rfl
@[simp] theorem endExchange_addr (s : State) : (endExchange s).addr = s.addr := rfl
@[simp] theorem endExchange_cmd (s : State) : (endExchange s).cmd = s.cmd := rfl
@[simp] theorem endExchange_plen (s : State) : (endExchange s).plen = s.plen := rfl
@[simp] theorem endExchange_width (s : State) : (endExchange s).width = s.width := rfl
@[simp] theorem endExchange_val (s : State) : (endExchange s).val = s.val := rfl
@[simp] theorem endExchange_ib (s : State) : (endExchange s).ib = s.ib := rfl
@[simp] theorem endExchange_pl (s : State) : (endExchange s).pl = s.pl := rfl
@[simp] theorem endExchange_txf (s : State) : (endExchange s).txf = s.txf := rfl
@[simp] theorem endExchange_rxf (s : State) : (endExchange s).rxf = s.rxf := rfl
@[simp] theorem endExchange_cmdAllowed (s : State) : (endExchange s).cmdAllowed = s.cmdAllowed := rfl
@[simp] theorem endExchange_inputs (s : State) : (endExchange s).inputs = s.inputs := rfl
@[simp] theorem endExchange_drawn (s : State) : (endExchange s).drawn = s.drawn := rfl
@[simp] theorem endExchange_wire (s : State) : (endExchange s).wire = s.wire := rfl
@[simp] theorem endExchange_readLog (s : State) : (endExchange s).readLog = s.readLog := rfl

/-! ### `HostRead(a)` (R160) -/

@[simp] theorem hostReadStep_xop (a : Byte) (s : State) : (hostReadStep a s).xop = s.xop := rfl
@[simp] theorem hostReadStep_busy (a : Byte) (s : State) : (hostReadStep a s).busy = s.busy := rfl
@[simp] theorem hostReadStep_done (a : Byte) (s : State) : (hostReadStep a s).done = s.done := rfl
@[simp] theorem hostReadStep_err (a : Byte) (s : State) : (hostReadStep a s).err = s.err := rfl
@[simp] theorem hostReadStep_ovr (a : Byte) (s : State) : (hostReadStep a s).ovr = s.ovr := rfl
@[simp] theorem hostReadStep_phase (a : Byte) (s : State) : (hostReadStep a s).phase = s.phase := rfl
@[simp] theorem hostReadStep_errCode (a : Byte) (s : State) : (hostReadStep a s).errCode = s.errCode := rfl
@[simp] theorem hostReadStep_errInfo (a : Byte) (s : State) : (hostReadStep a s).errInfo = s.errInfo := rfl
@[simp] theorem hostReadStep_vmask (a : Byte) (s : State) : (hostReadStep a s).vmask = s.vmask := rfl
@[simp] theorem hostReadStep_txcnt (a : Byte) (s : State) : (hostReadStep a s).txcnt = s.txcnt := rfl
@[simp] theorem hostReadStep_rxcnt (a : Byte) (s : State) : (hostReadStep a s).rxcnt = s.rxcnt := rfl
@[simp] theorem hostReadStep_csum (a : Byte) (s : State) : (hostReadStep a s).csum = s.csum := rfl
@[simp] theorem hostReadStep_addr (a : Byte) (s : State) : (hostReadStep a s).addr = s.addr := rfl
@[simp] theorem hostReadStep_cmd (a : Byte) (s : State) : (hostReadStep a s).cmd = s.cmd := rfl
@[simp] theorem hostReadStep_plen (a : Byte) (s : State) : (hostReadStep a s).plen = s.plen := rfl
@[simp] theorem hostReadStep_width (a : Byte) (s : State) : (hostReadStep a s).width = s.width := rfl
@[simp] theorem hostReadStep_val (a : Byte) (s : State) : (hostReadStep a s).val = s.val := rfl
@[simp] theorem hostReadStep_ib (a : Byte) (s : State) : (hostReadStep a s).ib = s.ib := rfl
@[simp] theorem hostReadStep_pl (a : Byte) (s : State) : (hostReadStep a s).pl = s.pl := rfl
@[simp] theorem hostReadStep_txf (a : Byte) (s : State) : (hostReadStep a s).txf = s.txf := rfl
@[simp] theorem hostReadStep_rxf (a : Byte) (s : State) : (hostReadStep a s).rxf = s.rxf := rfl
@[simp] theorem hostReadStep_cmdAllowed (a : Byte) (s : State) : (hostReadStep a s).cmdAllowed = s.cmdAllowed := rfl
@[simp] theorem hostReadStep_inputs (a : Byte) (s : State) : (hostReadStep a s).inputs = s.inputs := rfl
@[simp] theorem hostReadStep_drawn (a : Byte) (s : State) : (hostReadStep a s).drawn = s.drawn := rfl
@[simp] theorem hostReadStep_wire (a : Byte) (s : State) : (hostReadStep a s).wire = s.wire := rfl
@[simp] theorem hostReadStep_readLog (a : Byte) (s : State) : (hostReadStep a s).readLog = s.readLog ++ [(a, hostRead a s)] := rfl

/-! ### reset of the block (R47, R200): the block's registers, then what is not state of the block -/

@[simp] theorem resetBlock_xop (s : State) : (resetBlock s).xop = 0x00 := rfl
@[simp] theorem resetBlock_busy (s : State) : (resetBlock s).busy = false := rfl
@[simp] theorem resetBlock_done (s : State) : (resetBlock s).done = false := rfl
@[simp] theorem resetBlock_err (s : State) : (resetBlock s).err = false := rfl
@[simp] theorem resetBlock_ovr (s : State) : (resetBlock s).ovr = false := rfl
@[simp] theorem resetBlock_phase (s : State) : (resetBlock s).phase = .idle := rfl
@[simp] theorem resetBlock_errCode (s : State) : (resetBlock s).errCode = .noError := rfl
@[simp] theorem resetBlock_errInfo (s : State) : (resetBlock s).errInfo = 0x00 := rfl
@[simp] theorem resetBlock_vmask (s : State) : (resetBlock s).vmask = 0 := rfl
@[simp] theorem resetBlock_txcnt (s : State) : (resetBlock s).txcnt = 0x00 := rfl
@[simp] theorem resetBlock_rxcnt (s : State) : (resetBlock s).rxcnt = 0x00 := rfl
@[simp] theorem resetBlock_csum (s : State) : (resetBlock s).csum = 0x00 := rfl
@[simp] theorem resetBlock_addr (s : State) : (resetBlock s).addr = 0xFF := rfl
@[simp] theorem resetBlock_cmd (s : State) : (resetBlock s).cmd = 0x00 := rfl
@[simp] theorem resetBlock_plen (s : State) : (resetBlock s).plen = 0x00 := rfl
@[simp] theorem resetBlock_width (s : State) : (resetBlock s).width = 0x00 := rfl
@[simp] theorem resetBlock_val (s : State) : (resetBlock s).val = 0 := rfl
@[simp] theorem resetBlock_ib (s : State) : (resetBlock s).ib = Vector.replicate 4 0x00 := rfl
@[simp] theorem resetBlock_pl (s : State) : (resetBlock s).pl = Vector.replicate 22 0x00 := rfl
@[simp] theorem resetBlock_txf (s : State) : (resetBlock s).txf = Vector.replicate 26 0x00 := rfl
@[simp] theorem resetBlock_rxf (s : State) : (resetBlock s).rxf = Vector.replicate 26 0x00 := rfl
@[simp] theorem resetBlock_cmdAllowed (s : State) : (resetBlock s).cmdAllowed = s.cmdAllowed := rfl
@[simp] theorem resetBlock_inputs (s : State) : (resetBlock s).inputs = s.inputs := rfl
@[simp] theorem resetBlock_drawn (s : State) : (resetBlock s).drawn = s.drawn := rfl
@[simp] theorem resetBlock_wire (s : State) : (resetBlock s).wire = s.wire := rfl
@[simp] theorem resetBlock_readLog (s : State) : (resetBlock s).readLog = s.readLog := rfl

end Sys2Proof.Machine
end

