-- ==== Sys2Proof/Laws/Ops.lean ====
section
/-! SUPPORT. For each shared operation one lemma that says everything it can do; later proofs cite these and do not unfold
the operations. -/

namespace Sys2Proof.Machine

/-- `buildThen` raises the operand's error, raises PayloadTooLong, or goes on with the built frame in TXF. -/
theorem buildThen_cases (p : Except ErrCode (List Byte)) (rest : State → State) (s : State) :
    (∃ e, p = .error e ∧ buildThen p rest s = raiseError e 0 s) ∨
      (∃ b, p = .ok b ∧ 22 < b.length ∧ buildThen p rest s = raiseError .payloadTooLong 0 s) ∨
      (∃ b, p = .ok b ∧ b.length ≤ 22 ∧
        buildThen p rest s = rest { s with txf := putBytes s.txf 0 (frame s.addr s.cmd b) }) := by
  cases p with
  | error e => exact .inl ⟨e, rfl, rfl⟩
  | ok b =>
    rcases buildFrame_cases s.addr s.cmd b with ⟨hb, h⟩ | ⟨hb, h⟩
    · exact .inr (.inl ⟨b, rfl, hb, by simp [buildThen, h]⟩)
    · exact .inr (.inr ⟨b, rfl, hb, by simp [buildThen, h]⟩)

/-- `validateThen` goes on with VMASK = 0, or raises InvalidFrame with the mask in VMASK. -/
theorem validateThen_cases (rest : State → State) (s : State) :
    (validationMask s.cmdAllowed s.txf = 0 ∧ validateThen rest s = rest { s with vmask := 0 }) ∨
      (validationMask s.cmdAllowed s.txf ≠ 0 ∧
        validateThen rest s = raiseError .invalidFrame (reason (validationMask s.cmdAllowed s.txf))
          { s with vmask := validationMask s.cmdAllowed s.txf }) := by
  by_cases h : validationMask s.cmdAllowed s.txf = 0
  · exact .inl ⟨h, (if_neg (not_not.mpr h)).trans (by rw [h])⟩
  · exact .inr ⟨h, if_pos h⟩

/-- The issue step ends in an error of the operand or the builder with TXF unchanged, in InvalidFrame with the frame in
TXF, or in an exchange that has just begun with a valid frame in TXF. -/
theorem issue_cases (p : Except ErrCode (List Byte)) (s : State) :
    (∃ e, p = .error e ∧ issue p s = raiseError e 0 s) ∨
      (∃ b, p = .ok b ∧ 22 < b.length ∧ issue p s = raiseError .payloadTooLong 0 s) ∨
      (∃ b f, p = .ok b ∧ b.length ≤ 22 ∧ f = putBytes s.txf 0 (frame s.addr s.cmd b) ∧
        validationMask s.cmdAllowed f ≠ 0 ∧
        issue p s = raiseError .invalidFrame (reason (validationMask s.cmdAllowed f))
          { s with txf := f, vmask := validationMask s.cmdAllowed f }) ∨
      (∃ b f, p = .ok b ∧ b.length ≤ 22 ∧ f = putBytes s.txf 0 (frame s.addr s.cmd b) ∧
        validationMask s.cmdAllowed f = 0 ∧
        issue p s = beginExchange { s with txf := f, vmask := 0 }) := by
  rcases buildThen_cases p (validateThen beginExchange) s with ⟨e, hp, h⟩ | ⟨b, hp, hb, h⟩ | ⟨b, hp, hb, h⟩
  · exact .inl ⟨e, hp, h⟩
  · exact .inr (.inl ⟨b, hp, hb, h⟩)
  · rcases validateThen_cases beginExchange { s with txf := putBytes s.txf 0 (frame s.addr s.cmd b) } with
      ⟨hm, hv⟩ | ⟨hm, hv⟩
    · exact .inr (.inr (.inr ⟨b, _, hp, hb, rfl, hm, h.trans hv⟩))
    · exact .inr (.inr (.inl ⟨b, _, hp, hb, rfl, hm, h.trans hv⟩))

/-- The next input is the first listed one, or a free one when none is listed. -/
theorem nextInput_cases (s : State) :
    (∃ i rest, s.inputs = i :: rest ∧ nextInput s = (i, { s with inputs := rest })) ∨
      (s.inputs = [] ∧ nextInput s = (Config.freeInput s.drawn, { s with drawn := s.drawn + 1 })) := by
  rcases h : s.inputs with _ | ⟨i, rest⟩
  · exact .inr ⟨rfl, by simp [nextInput, h]⟩
  · exact .inl ⟨i, rest, rfl, by simp [nextInput, h]⟩

/-- A step whose first listed input is `i` is the transition on `i`. -/
theorem step_of_inputs {s : State} {i : Input} {rest : List Input} (h : s.inputs = i :: rest) :
    step s = inputStep i { s with inputs := rest } := by
  simp [step, nextInput, h]

/-- What the completion of an exchange can do: SEND and SENDI are done; GETI is done with the decoded value in VAL, or the
model stops because WIDTH is unsupported. -/
theorem completeExchange_cases (s : State) :
    (s.xop ≠ 0x09 ∧ completeExchange s = .next (completeOk (endExchange s))) ∨
      (s.xop = 0x09 ∧ widthSupported s.width.toNat = true ∧ completeExchange s =
        .next (completeOk { endExchange s with
          val := BitVec.ofNat 32 (leDecode (bytesAt s.rxf 3 s.width.toNat)) })) ∨
      (s.xop = 0x09 ∧ widthSupported s.width.toNat = false ∧
        completeExchange s = .fault .completionWidthUnsupported) := by
  by_cases hx : s.xop = 0x09
  · rcases decodeInt_cases (bytesAt s.rxf 3 s.width.toNat) with ⟨hw, h⟩ | ⟨hw, h⟩ <;> rw [bytesAt_length] at hw
    · exact .inr (.inr ⟨hx, hw, by simp [completeExchange, hx, responseInteger, h]⟩)
    · exact .inr (.inl ⟨hx, hw, by simp [completeExchange, hx, responseInteger, h]⟩)
  · exact .inl ⟨hx, if_neg hx⟩

/-- A write from the host is dropped and flagged, starts an operation, or writes one register. -/
theorem hostWrite_cases (a v : Byte) (s : State) :
    (s.busy = true ∧ hostWrite a v s = .next { s with ovr := true }) ∨
      (s.busy = false ∧ regOf a = .op ∧ hostWrite a v s = opWrite v s) ∨
      (s.busy = false ∧ regOf a ≠ .op ∧ hostWrite a v s = .next (writeReg (regOf a) v s)) := by
  cases hb : s.busy
  · by_cases hr : regOf a = .op
    · exact .inr (.inl ⟨rfl, hr, by simp [hostWrite, hb, hr]⟩)
    · exact .inr (.inr ⟨rfl, hr, by simp [hostWrite, hb, hr]⟩)
  · exact .inl ⟨rfl, by simp [hostWrite, hb]⟩

/-- A write to OP while idle runs an operation or reports an illegal word. -/
theorem opWrite_cases (w : Byte) (s : State) :
    (∃ i, decodeWord w = .ok i ∧ opWrite w s = exec i s) ∨
      (∃ e, decodeWord w = .error e ∧
        opWrite w s = .next (raiseError .illegalOperation w (startOp w s))) := by
  unfold opWrite
  cases decodeWord w with
  | ok i => exact .inl ⟨i, rfl, rfl⟩
  | error e => exact .inr ⟨e, rfl, rfl⟩

/-- Every operation answers a next state: the block reports its errors and never stops (R170). -/
theorem exec_next (i : Instr) (s : State) : ∃ t, exec i s = .next t := by
  cases i with
  | enc => cases h : encodedOperand (startOp 0x01 s) <;> exact ⟨_, by simp only [exec, execEnc, h]; rfl⟩
  | dec => cases h : decodedOperand (startOp 0x02 s) <;> exact ⟨_, by simp only [exec, execDec, h]; rfl⟩
  | vin =>
    by_cases h : incomingLengthOk s.rxcnt = true
    · exact ⟨_, if_pos h⟩
    · exact ⟨_, if_neg h⟩
  | clr | build | csum | vout | send | sendi | geti => exact ⟨_, rfl⟩

end Sys2Proof.Machine
end

