-- ==== Sys2Proof/Laws/Exchange.lean ====
section
/-! SUPPORT. What one step of an exchange can do, said once (spec 42_command_transport.md R134 to R139, R146). -/

namespace Sys2Proof.Machine

/-- The answers of the stream in the TX phase. -/
theorem txAnswer_cases (g : StreamSignals) :
    g.txAnswer = none ∨ g.txAnswer = some .accept ∨ g.txAnswer = some .err := by
  simp only [StreamSignals.txAnswer]; split_ifs <;> simp

/-- Counting one more byte below 26 does not wrap. -/
theorem count_succ_toNat (n : Byte) (h : n.toNat < 26) : (n + 1).toNat = n.toNat + 1 := by
  rw [BitVec.toNat_add]; simp; omega

/-- The count reaches 26 exactly from 25. -/
theorem count_succ_eq_26 (n : Byte) : n + 1 = 26 ↔ n = 25 := by
  revert n; decide

/-- What a byte of the response can do: it is stored, it is stored and completes the exchange, or the model stops. -/
theorem onRxByte_cases (b : Byte) (s : State) :
    (∃ h : s.rxcnt.toNat < 26, s.rxcnt + 1 ≠ 26 ∧
      onRxByte b s = .next { s with rxf := s.rxf.set s.rxcnt.toNat b, rxcnt := s.rxcnt + 1 }) ∨
      (∃ h : s.rxcnt.toNat < 26, s.rxcnt + 1 = 26 ∧
        onRxByte b s = completeExchange { s with rxf := s.rxf.set s.rxcnt.toNat b, rxcnt := s.rxcnt + 1 }) ∨
      (26 ≤ s.rxcnt.toNat ∧ onRxByte b s = .fault .rxOffsetBeyondFrame) := by
  by_cases h : s.rxcnt.toNat < 26
  · by_cases h26 : s.rxcnt + 1 = 26
    · exact .inr (.inl ⟨h, h26, by simp only [onRxByte, h, dite_true, if_pos h26]⟩)
    · exact .inl ⟨h, h26, by simp only [onRxByte, h, dite_true, if_neg h26]⟩
  · exact .inr (.inr ⟨by omega, by simp only [onRxByte, h, dite_false]⟩)

/-- What a step of the stream that answers a next state has done: nothing; a byte sent; the write's failure; a byte stored;
the exchange completed (only a GETI changes VAL); the read's timeout; the read's failure. -/
theorem streamStep_cases (g : StreamSignals) (s t : State) (h : streamStep g s = .next t) :
    t = s ∨
      (s.phase = .tx ∧ ∃ hlt : s.txcnt.toNat < 26, t = { s with
        wire := s.wire ++ [s.txf[s.txcnt.toNat]], txcnt := s.txcnt + 1
        phase := if s.txcnt + 1 = 26 then .rx else .tx }) ∨
      (s.phase = .tx ∧ t = raiseError .ioError 1 (endExchange s)) ∨
      (s.phase = .rx ∧ ∃ b, ∃ hlt : s.rxcnt.toNat < 26, s.rxcnt + 1 ≠ 26 ∧
        t = { s with rxf := s.rxf.set s.rxcnt.toNat b, rxcnt := s.rxcnt + 1 }) ∨
      (s.phase = .rx ∧ ∃ r v, (v ≠ s.val → s.xop = 0x09) ∧
        t = completeOk (endExchange { s with rxf := r, rxcnt := 26, val := v })) ∨
      (s.phase = .rx ∧ t = raiseError .responseLength s.rxcnt (endExchange s)) ∨
      (s.phase = .rx ∧ t = raiseError .ioError 2 (endExchange s)) := by
  unfold streamStep at h
  cases hp : s.phase with
  | idle => rw [hp] at h; cases h; exact .inl rfl
  | tx =>
    rw [hp] at h
    simp only [txStep] at h
    split at h
    · cases h; exact .inl rfl
    · simp only [onTxAccept] at h
      split at h
      · rename_i hl; cases h; exact .inr (.inl ⟨rfl, hl, by rw [hp]⟩)
      · cases h
    · cases h; exact .inr (.inr (.inl ⟨rfl, rfl⟩))
  | rx =>
    rw [hp] at h
    simp only [rxStep] at h
    split at h
    · cases h; exact .inl rfl
    · rename_i b _
      rcases onRxByte_cases b s with ⟨hl, hn, e⟩ | ⟨hl, h26, e⟩ | ⟨_, e⟩ <;> rw [e] at h
      · cases h; exact .inr (.inr (.inr (.inl ⟨rfl, b, hl, hn, by rw [← hp]⟩)))
      · rcases completeExchange_cases { s with rxf := s.rxf.set s.rxcnt.toNat b, rxcnt := s.rxcnt + 1 } with
          ⟨_, e⟩ | ⟨hx, _, e⟩ | ⟨_, _, e⟩ <;> rw [e] at h <;> cases h
        · exact .inr (.inr (.inr (.inr (.inl ⟨rfl, _, s.val, fun hc => absurd rfl hc, by rw [h26, ← hp]⟩))))
        · exact .inr (.inr (.inr (.inr (.inl ⟨rfl, _, _, fun _ => hx, by rw [h26, ← hp]; rfl⟩))))
      · cases h
    · cases h; exact .inr (.inr (.inr (.inr (.inr (.inl ⟨rfl, rfl⟩)))))
    · cases h; exact .inr (.inr (.inr (.inr (.inr (.inr ⟨rfl, rfl⟩)))))

end Sys2Proof.Machine
end

