-- ==== Sys2Proof/Laws/HostPort.lean ====
section
/-! SUPPORT. The host port: reading a register after writing one, and what the transition on one input can do
(spec 20_memory.md R61; 43_host_access_and_control.md R160, R161). -/

namespace Sys2Proof.Machine

/-- A bit of the byte mask before it is shifted. -/
theorem byteMask_bit (m : Nat) : (0xFF#32).getLsbD m = decide (m < 8) := by
  by_cases h : m < 32
  · have small : ∀ m < 32, (0xFF#32).getLsbD m = decide (m < 8) := by decide
    exact small m h
  · rw [BitVec.getLsbD_of_ge _ _ (by omega)]; simp; omega

/-- A bit of VAL after one of its bytes is replaced. -/
theorem setValByte_bit (v : Value) (k : Fin 4) (b : Byte) (n : Nat) (hn : n < 32) :
    (setValByte v k b).getLsbD n =
      if 8 * k.val ≤ n ∧ n < 8 * k.val + 8 then b.getLsbD (n - 8 * k.val) else v.getLsbD n := by
  simp only [setValByte, BitVec.getLsbD_or, BitVec.getLsbD_and, BitVec.getLsbD_not, BitVec.getLsbD_shiftLeft,
    byteMask_bit, BitVec.getLsbD_setWidth, hn, decide_true, Bool.true_and]
  split
  · rename_i h
    simp [show ¬ n < 8 * k.val by omega, show n - 8 * k.val < 8 by omega, show n - 8 * k.val < 32 by omega]
  · rename_i h
    by_cases h1 : n < 8 * k.val
    · simp [h1]
    · simp [h1, show ¬ n - 8 * k.val < 8 by omega, BitVec.getLsbD_of_ge b (n - 8 * k.val) (by omega)]

/-- Writing one byte of VAL is read back, and leaves the other three as they were (R26). -/
theorem valByte_setValByte (v : Value) (k j : Fin 4) (b : Byte) :
    valByte (setValByte v k b) j = if j = k then b else valByte v j := by
  apply BitVec.eq_of_getLsbD_eq
  intro i hi
  simp only [valByte, BitVec.getLsbD_extractLsb', hi, decide_true, Bool.true_and]
  rw [setValByte_bit _ _ _ _ (by omega)]
  by_cases h : j = k
  · subst h; simp; intro hc; omega
  · have hne := Fin.val_ne_of_ne h
    have outside : ¬ (8 * k.val ≤ 8 * j.val + i ∧ 8 * j.val + i < 8 * k.val + 8) := by omega
    simp [h, outside, hi]

/-- Only the address 0x00 is OP's. -/
theorem regOf_eq_op_iff (a : Byte) : regOf a = .op ↔ a = 0x00 := by
  revert a; decide

/-- Two addresses of one register that is not reserved are equal. -/
theorem regOf_injective (a b : Byte) (h : regOf a = regOf b) (hr : regOf a ≠ .reserved) : a = b := by
  have place : ∃ f : Reg → Nat, ∀ a : Byte, regOf a = .reserved ∨ f (regOf a) = a.toNat :=
    ⟨fun r => match r with
      | .op => 0 | .status => 1 | .errCode => 2 | .errInfo => 3 | .vmask => 4 | .txcnt => 5 | .rxcnt => 6 | .csum => 7
      | .addr => 8 | .cmd => 9 | .plen => 10 | .width => 11 | .val k => 12 + k.val | .ib i => 16 + i.val
      | .pl i => 32 + i.val | .txf i => 64 + i.val | .rxf i => 96 + i.val | .reserved => 256, by decide⟩
  obtain ⟨f, hf⟩ := place
  have ha := (hf a).resolve_left hr
  have hb := (hf b).resolve_left (h ▸ hr)
  exact BitVec.eq_of_toNat_eq (by rw [← ha, ← hb, h])

/-- A write of one register leaves what every other register reads as (R161). -/
theorem readReg_writeReg_ne (r q : Reg) (v : Byte) (s : State) (hr : r ≠ q) :
    readReg q (writeReg r v s) = readReg q s := by
  cases r with
  | val k =>
    cases q with
    | val j => exact (valByte_setValByte _ _ _ _).trans (if_neg fun h => hr (by rw [h]))
    | _ => rfl
  | ib k =>
    cases q with
    | ib j => exact (Vector.getElem_set k.isLt _).trans (if_neg fun h => hr (by rw [Fin.ext h]))
    | _ => rfl
  | pl k =>
    cases q with
    | pl j => exact (Vector.getElem_set k.isLt _).trans (if_neg fun h => hr (by rw [Fin.ext h]))
    | _ => rfl
  | txf k =>
    cases q with
    | txf j => exact (Vector.getElem_set k.isLt _).trans (if_neg fun h => hr (by rw [Fin.ext h]))
    | _ => rfl
  | rxf k =>
    cases q with
    | rxf j => exact (Vector.getElem_set k.isLt _).trans (if_neg fun h => hr (by rw [Fin.ext h]))
    | _ => rfl
  | _ => cases q <;> first | rfl | exact absurd rfl hr

/-- What a register write leaves of the status registers and the exchange. -/
theorem writeReg_frame (r : Reg) (v : Byte) (s : State) :
    (writeReg r v s).xop = s.xop ∧ (writeReg r v s).busy = s.busy ∧ (writeReg r v s).done = s.done ∧
      (writeReg r v s).err = s.err ∧ (writeReg r v s).ovr = s.ovr ∧ (writeReg r v s).phase = s.phase ∧
      (writeReg r v s).errCode = s.errCode ∧ (writeReg r v s).errInfo = s.errInfo ∧
      (writeReg r v s).vmask = s.vmask ∧ (writeReg r v s).txcnt = s.txcnt ∧ (writeReg r v s).csum = s.csum ∧
      (writeReg r v s).cmdAllowed = s.cmdAllowed ∧ (writeReg r v s).wire = s.wire := by
  cases r <;> simp [writeReg]

/-- What the transition on one input can do: reset; nothing; a read; a write dropped, run, refused as illegal or stored; a
step of the stream. -/
theorem inputStep_cases (i : Input) (s : State) :
    (i.rst = true ∧ inputStep i s = .next (resetStep i.act s)) ∨
      (i.rst = false ∧
        ((i.act = .quiet ∧ inputStep i s = .next s) ∨
          (∃ a, i.act = .hostRead a ∧ inputStep i s = .next (hostReadStep a s)) ∨
          (s.busy = true ∧ inputStep i s = .next { s with ovr := true }) ∨
          (s.busy = false ∧ ∃ j, inputStep i s = exec j s) ∨
          (s.busy = false ∧ ∃ w, inputStep i s = .next (raiseError .illegalOperation w (startOp w s))) ∨
          (s.busy = false ∧ ∃ r v, inputStep i s = .next (writeReg r v s)) ∨
          (∃ g, i.act = .stream g ∧ inputStep i s = streamStep g s))) := by
  obtain ⟨rst, act⟩ := i
  cases rst
  · refine .inr ⟨rfl, ?_⟩
    cases act with
    | quiet => exact .inl ⟨rfl, rfl⟩
    | hostRead a => exact .inr (.inl ⟨a, rfl, rfl⟩)
    | hostWrite a v =>
      rcases hostWrite_cases a v s with ⟨hb, e⟩ | ⟨hb, _, e⟩ | ⟨hb, _, e⟩
      · exact .inr (.inr (.inl ⟨hb, e⟩))
      · rcases opWrite_cases v s with ⟨j, _, e'⟩ | ⟨_, _, e'⟩
        · exact .inr (.inr (.inr (.inl ⟨hb, j, e.trans e'⟩)))
        · exact .inr (.inr (.inr (.inr (.inl ⟨hb, v, e.trans e'⟩))))
      · exact .inr (.inr (.inr (.inr (.inr (.inl ⟨hb, _, v, e⟩)))))
    | stream g => exact .inr (.inr (.inr (.inr (.inr (.inr ⟨g, rfl, rfl⟩)))))
  · exact .inl ⟨rfl, rfl⟩

/-- A step is the transition on one input of a state that differs in the coming inputs alone. -/
theorem step_cases (s : State) :
    ∃ i rest n, step s = inputStep i { s with inputs := rest, drawn := n } := by
  rcases nextInput_cases s with ⟨i, rest, _, e⟩ | ⟨_, e⟩ <;> exact ⟨_, _, _, by rw [step, e]⟩

end Sys2Proof.Machine
end

