-- ==== Sys2Proof/Laws/PerInstr.lean ====
section
/-! SUPPORT. For every instruction: its word is legal and lies in its own row of the opcode table
(spec 30_encoding.md R88: a word selects the row with (w & mask) == match). -/

namespace Sys2Proof.Laws

/-- The instruction's word passes the checks of R89, and masked by the row's `mask` it is the row's `match`. -/
def RowMatch.Statement (i : Instr) : Prop :=
  i.wellFormed = true ∧ encodeWord i &&& i.rowMask = i.rowMatch

theorem RowMatch.clr : RowMatch.Statement .clr := ⟨rfl, rfl⟩
theorem RowMatch.enc : RowMatch.Statement .enc := ⟨rfl, rfl⟩
theorem RowMatch.dec : RowMatch.Statement .dec := ⟨rfl, rfl⟩
theorem RowMatch.build : RowMatch.Statement .build := ⟨rfl, rfl⟩
theorem RowMatch.csum (buf : Buffer) : RowMatch.Statement (.csum buf) := by cases buf <;> exact ⟨rfl, rfl⟩
theorem RowMatch.vout : RowMatch.Statement .vout := ⟨rfl, rfl⟩
theorem RowMatch.vin : RowMatch.Statement .vin := ⟨rfl, rfl⟩
theorem RowMatch.send : RowMatch.Statement .send := ⟨rfl, rfl⟩
theorem RowMatch.sendi : RowMatch.Statement .sendi := ⟨rfl, rfl⟩
theorem RowMatch.geti : RowMatch.Statement .geti := ⟨rfl, rfl⟩

end Sys2Proof.Laws
end

