-- ==== Sys2Proof/Machine/HostProgram.lean ====
section
/-! DEFINITION. The written form of host programs: the line `OP` and the pseudo-operations, each a fixed list of inputs
(spec 30_encoding.md R93, R94). They are no additional hardware. -/

namespace Sys2Proof.Machine

/-- `OP <mnemonic>`: the word of the operation written to OP (R93). -/
def lineOp (i : Instr) : List Input := [.opWord (encodeWord i)]

/-- `SETADDR a` (R94). -/
def lineSetAddr (a : Byte) : List Input := [.write 0x08 a]

/-- `SETCMD c` (R94). -/
def lineSetCmd (c : Byte) : List Input := [.write 0x09 c]

/-- `SETVAL v`: four byte writes, the least significant first (R94). -/
def lineSetVal (v : Value) : List Input :=
  [.write 0x0C (v.extractLsb' 0 8), .write 0x0D (v.extractLsb' 8 8), .write 0x0E (v.extractLsb' 16 8),
    .write 0x0F (v.extractLsb' 24 8)]

/-- `SETPL b0 b1 ...`, at most 22 bytes: the bytes, then PLEN (R94). -/
def lineSetPl (p : List Byte) : List Input :=
  (p.zipIdx.map fun x => Input.write (BitVec.ofNat 8 (0x20 + x.2)) x.1) ++ [.write 0x0A (BitVec.ofNat 8 p.length)]

/-- `WAIT` as `polls` reads of STATUS: how many it takes until DONE is 1 is the run's (R94, R206). -/
def lineWait (polls : Nat) : List Input := List.replicate polls (.read 0x01)

/-- `send(c, p)` up to its OP line; a WAIT follows it (R94). -/
def lineSend (c : Byte) (p : List Byte) : List Input := lineSetCmd c ++ lineSetPl p ++ lineOp .send

/-- `send_integer(c, v, w)` up to its OP line; a WAIT follows it (R94). -/
def lineSendInteger (c : Byte) (v : Value) (w : Byte) : List Input :=
  lineSetCmd c ++ lineSetVal v ++ [.write 0x0B w] ++ lineOp .sendi

/-- `get_integer(c, w)` up to its OP line; a WAIT and the reads of VAL0..VAL3 follow it (R94). -/
def lineGetInteger (c w : Byte) : List Input := lineSetCmd c ++ [.write 0x0B w] ++ lineOp .geti

end Sys2Proof.Machine
end

