-- ==== Sys2Proof/Tests/Slice0.lean ====
section
/-! SUPPORT. The model's own tests. Expected values are those of spec/95_test_vectors.md (its S, V and P numbers are named at
each test) or of the rule named there; none is the model's own answer. The second half holds, for each statement with hypotheses,
a concrete case that meets them. -/

namespace Sys2Proof.Tests

open Sys2Proof.Machine

/-! ### Small states -/

/-- The field `f` of the state an outcome answers. -/
def field {α : Type} (f : State → α) (o : Host.Outcome State Fault Refusal) : Option α := (stateOf o).map f

/-- 26 bytes: the listed ones first, zeros between, the last byte `c` (spec 95_test_vectors.md writes frames so). -/
def frameOf (first : List Byte) (c : Byte) : Vector Byte 26 :=
  Vector.ofFn fun i => if i.val = 25 then c else first.getD i.val 0

/-- V20, the enable frame `AA 00 21 01 00...00 CC`. -/
def frameV20 : Vector Byte 26 := frameOf [0xAA, 0x00, 0x21, 0x01] 0xCC

/-- The setup of V60: ADDR 0x00, CMD 0x21, one payload byte 0x01. -/
def ready : State :=
  { State.reset with addr := 0x00, cmd := 0x21, plen := 1, pl := (Vector.replicate 22 0).set 0 0x01 }

/-- V61: the exchange of V60 has just begun. -/
def sending : State := { ready with xop := 0x07, busy := true, phase := .tx, txf := frameV20 }

/-- The exchange of V60 with 25 bytes accepted (V62, V66). -/
def sendingLast : State := { sending with txcnt := 25, wire := frameV20.toList.take 25 }

/-- The exchange of V60 waiting for the first byte of the response (V63). -/
def receiving : State := { sending with txcnt := 26, phase := .rx, wire := frameV20.toList }

/-- P2 before the last byte of line 7: GETI at width 4, 25 bytes received, VAL still 0xFFFFFFFF. -/
def gettingLast : State :=
  { receiving with
    xop := 0x09, width := 4, val := 0xFFFFFFFF, rxcnt := 25, rxf := frameOf [0xAA, 0x00, 0x26, 0x03] 0x00 }

/-! ### Words (30_encoding.md R87 to R92) -/

/-- An ill-formed term for each of the three checks. -/
theorem test_ill_formed_zero_bits : (OpWord.mk 1 0 0).wellFormed = false := by decide
theorem test_ill_formed_opcode : (OpWord.mk 0 0 0xA).wellFormed = false := by decide
theorem test_ill_formed_select : (OpWord.mk 0 1 7).wellFormed = false := by decide
theorem test_well_formed_csum_r : (OpWord.mk 0 1 4).wellFormed = true := by decide

/-- Words written out bit by bit: 7:5 zero, 4 `b`, 3:0 `opc`. -/
theorem test_decode_clr : decode [0b00000000] = .ok (.clr, []) := by decide
theorem test_decode_enc : decode [0b00000001] = .ok (.enc, []) := by decide
theorem test_decode_dec : decode [0b00000010] = .ok (.dec, []) := by decide
theorem test_decode_build : decode [0b00000011] = .ok (.build, []) := by decide
theorem test_decode_csum_t : decode [0b00000100] = .ok (.csum .txf, []) := by decide
theorem test_decode_csum_r : decode [0b00010100] = .ok (.csum .rxf, []) := by decide
theorem test_decode_vout : decode [0b00000101] = .ok (.vout, []) := by decide
theorem test_decode_vin : decode [0b00000110] = .ok (.vin, []) := by decide
theorem test_decode_send : decode [0b00000111] = .ok (.send, []) := by decide
theorem test_decode_sendi : decode [0b00001000] = .ok (.sendi, []) := by decide
theorem test_decode_geti : decode [0b00001001, 0xFF] = .ok (.geti, [0xFF]) := by decide
theorem test_decode_undefined_opcode : decode [0b00001010] = .error (.opcodeUndefined 0x0A) := by decide
theorem test_decode_select_set : decode [0b00010111] = .error (.bufferSelectSet 0x17) := by decide
theorem test_decode_zero_bits : decode [0b00100100] = .error (.zeroBitsSet 0x24) := by decide
theorem test_decode_no_byte : decode [] = .error .noByte := by decide

theorem test_table_word : decodeTableWord 8 0x14 = some (.csum .rxf) := by decide
theorem test_table_word_illegal : decodeTableWord 8 0x80 = none := by decide

/-- Counting checks of 95_test_vectors.md section 7. -/
theorem test_legal_words : (List.range 256).countP (fun n => (decodeTableWord 8 n).isSome) = 11 := by decide +kernel

/-! ### The pure functions (95_test_vectors.md section 2, last paragraph) -/

theorem test_encode_65536 : encodeInt 65536 4 = .ok [0x00, 0x00, 0x01, 0x00] := by decide
theorem test_encode_out_of_range : encodeInt 4294967296 4 = .error .valueOutOfRange := by decide
theorem test_encode_width_first : encodeInt 4294967296 3 = .error .unsupportedWidth := by decide
theorem test_decode_10000 : decodeInt [0x10, 0x27, 0x00, 0x00] = .ok 10000 := by decide
theorem test_decode_empty : decodeInt [] = .error .unsupportedWidth := by decide

/-- S1: the checksum is 0xCC. -/
theorem test_s1_frame : buildFrame 0x00 0x21 [0x01] = .ok frameV20.toList := by decide

/-! ### The operations, one step each -/

/-- P3 line 12: CLR leaves STATUS 0x00 after 0x0E. -/
theorem test_clr : field statusByte
    (exec .clr { State.reset with done := true, err := true, ovr := true, errCode := .responseLength, errInfo := 0x0A }) =
      some 0x00 := by decide

/-- V2: the bytes of IB above the width are kept. -/
theorem test_v2_enc : field (fun t => (t.ib, statusByte t))
    (exec .enc { State.reset with val := 0xFF, width := 1, ib := #v[0x11, 0x22, 0x33, 0x44] }) =
      some (#v[0xFF, 0x22, 0x33, 0x44], 0x02) := by decide

/-- V9d: the width is judged first. -/
theorem test_v9d_enc : field (fun t => (t.errCode, statusByte t)) (exec .enc { State.reset with val := 0x100 }) =
    some (.unsupportedWidth, 0x06) := by decide

/-- V12a: the upper bytes of VAL are cleared. -/
theorem test_v12a_dec : field State.val
    (exec .dec { State.reset with ib := #v[0xEF, 0xBE, 0xAD, 0xDE], width := 2, val := 0xDEADBEEF }) =
      some 0x0000BEEF := by decide

/-- V13b. -/
theorem test_v13b_dec : field (fun t => (t.val, t.errCode)) (exec .dec { State.reset with width := 8, val := 0x12345678 }) =
    some (0x12345678, .unsupportedWidth) := by decide

/-- V26f: BUILD does not validate; the checksum is 0xC8. -/
theorem test_v26f_build : field (fun t => (t.txf, statusByte t)) (exec .build { State.reset with cmd := 0x1F }) =
    some (frameOf [0xAA, 0xFF, 0x1F] 0xC8, 0x02) := by decide

/-- V27: TXF is unchanged. -/
theorem test_v27_build : field (fun t => (t.txf, t.errCode)) (exec .build { ready with plen := 23, txf := frameV20 }) =
    some (frameV20, .payloadTooLong) := by decide

/-- V34: 25 bytes of 0xFF. -/
theorem test_v34_csum_t : field State.csum (exec (.csum .txf) { State.reset with txf := Vector.replicate 26 0xFF }) =
    some 0xE7 := by decide

/-- V35: byte 25 is not summed. -/
theorem test_v35_csum_r : field (fun t => (t.csum, t.xop))
    (exec (.csum .rxf) { State.reset with rxf := frameOf [0xAA, 0x00, 0x26, 0x03] 0xD3 }) = some (0xD3, 0x14) := by decide

/-- V42: the start byte is in the sum, so two checks fail. -/
theorem test_v42_vout : field (fun t => (t.vmask, t.errInfo)) (exec .vout { State.reset with txf := frameV20.set 0 0xAB }) =
    some (0b1001, 1) := by decide

/-- V46: all four checks fail. -/
theorem test_v46_vout : field (fun t => (t.vmask, t.errInfo))
    (exec .vout { State.reset with txf := Vector.replicate 26 0xFF }) = some (0b1111, 1) := by decide

/-- V50 and V54. -/
theorem test_v50_vin : field statusByte (exec .vin { State.reset with rxcnt := 26 }) = some 0x02 := by decide
theorem test_v54_vin : field (fun t => (t.errCode, t.errInfo)) (exec .vin { State.reset with rxcnt := 27 }) =
    some (.responseLength, 0x1B) := by decide

/-- V61: STATUS 0x11, the counters 0. -/
theorem test_v61_send : field (fun t => (t.txf, statusByte t)) (exec .send ready) = some (frameV20, 0x11) := by decide

/-- V71: build fails before validation. -/
theorem test_v71_send : field (fun t => (t.errCode, statusByte t)) (exec .send { ready with plen := 23, addr := 0xFF }) =
    some (.payloadTooLong, 0x06) := by decide

/-- V72: VAL = 10000 at width 4, frame V23. -/
theorem test_v72_sendi : field (fun t => (t.txf, statusByte t))
    (exec .sendi { State.reset with addr := 0x05, cmd := 0x23, val := 10000, width := 4 }) =
      some (frameOf [0xAA, 0x05, 0x23, 0x10, 0x27] 0x09, 0x11) := by decide

/-- R141: the range is judged before the frame. -/
theorem test_sendi_range_before_frame : field State.errCode
    (exec .sendi { State.reset with val := 0x100, width := 1 }) = some .valueOutOfRange := by decide

/-- P2 line 5. -/
theorem test_p2_geti : field (fun t => (t.txf, statusByte t))
    (exec .geti { State.reset with addr := 0x00, cmd := 0x26, width := 4 }) =
      some (frameOf [0xAA, 0x00, 0x26] 0xD0, 0x11) := by decide

/-- R142: the width is checked before anything is built. -/
theorem test_geti_width_first : field (fun t => (t.errCode, t.txf)) (exec .geti { State.reset with width := 3 }) =
    some (.unsupportedWidth, Vector.replicate 26 0) := by decide

/-! ### The steps of an exchange -/

/-- V62: the 26th TxAccept ends the TX phase. -/
theorem test_v62_tx_accept : field (fun t => (statusByte t, t.txcnt, t.wire)) (inputStep .txAccept sendingLast) =
    some (0x21, 26, frameV20.toList) := by decide

/-- V66: the write fails after 25 bytes. -/
theorem test_v66_tx_err : field (fun t => (statusByte t, t.errInfo, t.txcnt)) (inputStep .txErr sendingLast) =
    some (0x06, 1, 25) := by decide

/-- P2 line 7: the 26th byte completes GETI. -/
theorem test_p2_rx_byte : field (fun t => (t.val, statusByte t)) (inputStep (.rxByte 0xD3) gettingLast) =
    some (0x00000003, 0x02) := by decide

/-- V63: an empty read. -/
theorem test_v63_rx_timeout : field (fun t => (t.errCode, t.errInfo)) (inputStep .rxTimeout receiving) =
    some (.responseLength, 0) := by decide

/-- V67: the read fails. -/
theorem test_v67_rx_err : field (fun t => (t.errCode, t.errInfo)) (inputStep .rxErr { receiving with rxcnt := 1 }) =
    some (.ioError, 2) := by decide

/-- R65: of RxErr, RxTimeout and RxByte signalled together the error wins and the byte is not taken. -/
theorem test_rx_together : field (fun t => (t.errCode, t.rxcnt))
    (streamStep { rxValid := true, rxTimeout := true, rxErr := true } receiving) = some (.ioError, 0) := by decide

/-- P4 line 6: the block is idle. -/
theorem test_p4_idle : stateOf (inputStep .txAccept State.reset) = some State.reset := by decide

/-! ### The host port and reset -/

/-- R61, R67: VAL1 is bits 15:8. -/
theorem test_write_val1 : field State.val (inputStep (.write 0x0D 0xBE) { State.reset with val := 0x11223344 }) =
    some 0x1122BE44 := by decide

/-- R39: a read-only register ignores a write and sets no flag. -/
theorem test_write_read_only : stateOf (hostWrite 0x05 0xFF State.reset) = some State.reset := by decide

/-- P3 lines 7 and 8: a write while busy is dropped; STATUS reads 0x29. -/
theorem test_p3_write_busy : field (fun t => (t.cmd, hostRead 0x01 t)) (hostWrite 0x09 0x55 receiving) =
    some (0x21, 0x29) := by decide

/-- R163: an illegal word is kept in XOP and is the error's detail. -/
theorem test_illegal_word : field (fun t => (t.xop, t.errInfo, hostRead 0x02 t)) (hostWrite 0x00 0xFF State.reset) =
    some (0xFF, 0xFF, 7) := by decide

/-- R200: reset wins over a stream event; R201: what was sent stays sent. -/
theorem test_reset_mid_exchange : field (fun t => (t.addr, statusByte t, t.wire))
    (inputStep ⟨true, .stream { txReady := true }⟩ sendingLast) = some (0xFF, 0x00, frameV20.toList.take 25) := by decide

/-- R46: the ports while an exchange waits for its checksum byte to be taken. -/
theorem test_ports : (txValid false sendingLast, txData false sendingLast, rxReady false sendingLast) =
    (true, some 0xCC, false) := by decide

/-- R170, R35: the numbers of the errors and phases as the host reads them (R163; V61 to V65, V68, V69, V7, V8). -/
theorem test_error_numbers : ([ErrCode.noError, .invalidFrame, .payloadTooLong, .responseLength, .unsupportedWidth,
    .valueOutOfRange, .ioError, .illegalOperation].map fun e => hostRead 0x02 { State.reset with errCode := e }) =
      [0, 1, 2, 3, 4, 5, 6, 7] := by decide
theorem test_status_phases : [State.reset, sending, receiving].map (hostRead 0x01) = [0x00, 0x11, 0x21] := by decide

/-- R94: `SETVAL` writes the least significant byte first. -/
theorem test_line_setval : lineSetVal 0xDEADBEEF =
    [.write 0x0C 0xEF, .write 0x0D 0xBE, .write 0x0E 0xAD, .write 0x0F 0xDE] := by decide

/-- R94: `SETPL 10 27` writes two bytes and then PLEN. -/
theorem test_line_setpl : lineSetPl [0x10, 0x27] = [.write 0x20 0x10, .write 0x21 0x27, .write 0x0A 2] := by decide

/-- The placed word is the one the next step runs. -/
theorem test_fetch_word : stateOf (step (State.reset.withFetchWord 8 0x03)) = stateOf (exec .build State.reset) := by decide
theorem test_fetch_word_busy : field State.xop (step (sending.withFetchWord 8 0x14)) = some 0x14 := by decide

/-! ### Hypotheses that something meets

Each theorem names the statement of Certificates/Slice0/Obligations.lean it serves and shows, for every clause, a case at the
edge of the clause's range that meets all its hypotheses together. -/

/-- `Inv` of a state by evaluation. -/
theorem test_inv_reset : Inv State.reset := ⟨by constructor <;> decide, by constructor <;> decide⟩
theorem test_inv_ready : Inv ready := ⟨by constructor <;> decide, by constructor <;> decide⟩
theorem test_inv_sending : Inv sending := ⟨by constructor <;> decide, by constructor <;> decide⟩
theorem test_inv_sendingLast : Inv sendingLast := ⟨by constructor <;> decide, by constructor <;> decide⟩
theorem test_inv_receiving : Inv receiving := ⟨by constructor <;> decide, by constructor <;> decide⟩
theorem test_inv_gettingLast : Inv gettingLast := ⟨by constructor <;> decide, by constructor <;> decide⟩

/-- WordDecodesByFields: bit 5 alone; opc 4 with b = 0 and 1; b = 1 with opc 3 and 5; opc 0 and 9; opc 10 and 15. -/
theorem test_witness_WordDecodesByFields :
    (0x20 : Byte).toNat / 32 ≠ 0 ∧
    (∀ w ∈ [0x04, (0x14 : Byte)], w.toNat / 32 = 0 ∧ w.toNat % 16 = 4) ∧
    (∀ w ∈ [0x13, (0x15 : Byte)], w.toNat / 32 = 0 ∧ w.toNat % 16 ≠ 4 ∧ w.toNat / 16 % 2 = 1) ∧
    (∀ w ∈ [0x00, (0x09 : Byte)], w.toNat / 32 = 0 ∧ w.toNat % 16 ≠ 4 ∧ w.toNat / 16 % 2 = 0 ∧ w.toNat % 16 ≤ 9) ∧
    (∀ w ∈ [0x0A, (0x0F : Byte)],
      w.toNat / 32 = 0 ∧ w.toNat % 16 ≠ 4 ∧ w.toNat / 16 % 2 = 0 ∧ 9 < w.toNat % 16) := by decide

/-- IllegalWordReportsIllegalOperation: each of the three ways to be illegal, at the reset state. -/
theorem test_witness_IllegalWord : State.reset.busy = false ∧
    ∀ w ∈ [0x20, 0xE4, 0x0A, 0x0F, 0x10, (0x15 : Byte)],
      w.toNat / 32 ≠ 0 ∨ 10 ≤ w.toNat % 16 ∨ (w.toNat / 16 % 2 = 1 ∧ w.toNat % 16 ≠ 4) := by decide

/-- StepRunsDecodedOperation: inputs listed and none; BUILD written to OP while idle. -/
theorem test_witness_StepRuns : State.reset.inputs = [] ∧
    ({ ready with inputs := [.opWord 0x03, .txErr] } : State).inputs = Input.opWord 0x03 :: [.txErr] ∧
    ready.busy = false ∧ decodeWord 0x03 = .ok .build := by decide

/-- ClrClearsStatus: a busy state; CLR and SEND leave DONE 0; the step that ends an exchange; OVR cleared by CLR and by rst. -/
theorem test_witness_Clr : sending.busy = true ∧
    field State.done (hostWrite 0x00 0x00 ready) = some false ∧
    field (fun t => (t.done, t.busy)) (hostWrite 0x00 0x07 ready) = some (false, true) ∧
    field State.busy (inputStep .txErr sending) = some false ∧
    field State.ovr (inputStep (.opWord 0x00) { ready with ovr := true }) = some false ∧
    field State.ovr (inputStep .reset { sending with ovr := true }) = some false := by decide

/-- PortsShowState: TX at the last byte, and no byte while receiving. -/
theorem test_witness_Ports : (sendingLast.txcnt.toNat < 26 ∧ sendingLast.phase = .tx) ∧ txValid false receiving = false ∧
    txValid true sendingLast = false := by decide

/-- EncPacksLittleEndian, SendiIssuesExchange: widths 0, 3, 5, 255; the least value out of range and the greatest in range. -/
theorem test_witness_Width : (∀ w ∈ [0, 3, 5, (255 : Byte)], ¬ WidthOk { State.reset with width := w }) ∧
    (∀ w ∈ [1, 2, (4 : Byte)], WidthOk { State.reset with width := w }) ∧
    (stateOf (exec .enc State.reset)).isSome = true := by decide
theorem test_witness_Range :
    2 ^ (8 * (1 : Byte).toNat) ≤ (0x100 : Value).toNat ∧ (0xFF : Value).toNat < 2 ^ (8 * (1 : Byte).toNat) ∧
    2 ^ (8 * (2 : Byte).toNat) ≤ (0x10000 : Value).toNat ∧ (0xFFFF : Value).toNat < 2 ^ (8 * (2 : Byte).toNat) ∧
    (0xFFFFFFFF : Value).toNat < 2 ^ (8 * (4 : Byte).toNat) := by simp

/-- DecUnpacksLittleEndian, GetiIssuesExchange: an unsupported and each supported width. -/
theorem test_witness_Dec : ¬ WidthOk State.reset ∧ ∀ w ∈ [1, 2, (4 : Byte)], WidthOk { State.reset with width := w } := by decide

/-- BuildAssemblesFrame: PLEN 23 and 22. -/
theorem test_witness_Build : 22 < (23 : Byte).toNat ∧ (22 : Byte).toNat ≤ 22 := by decide

/-- VoutReportsFailedChecks: the mask of the valid frame V20 and that of V42, and a VOUT that answers. -/
theorem test_witness_Vout :
    (∀ x ∈ [(frameV20, (0 : BitVec 4)), (frameV20.set 0 0xAB, 0b1001)],
      x.2[0] = (x.1[0] != 0xAA) ∧ x.2[1] = (x.1[1] == 0xFF) ∧ x.2[2] = (!Config.defaultCommands.admits x.1[2]) ∧
        x.2[3] = (x.1[25].toNat != frameSum x.1 % 256)) ∧
    (stateOf (exec .vout ready)).isSome = true := by decide

/-- VinChecksReceivedLength: 26, and its neighbours. -/
theorem test_witness_Vin : { State.reset with rxcnt := 26 }.rxcnt = 26 ∧ ∀ n ∈ [0, 25, 27, (255 : Byte)], n ≠ 26 := by decide

/-- SendIssuesExchange, SendiIssuesExchange, GetiIssuesExchange: a target that passes and the two ways to fail. -/
theorem test_witness_Target : TargetOk ready ∧ ready.plen.toNat ≤ 22 ∧ ¬ TargetOk { ready with addr := 0xFF } ∧
    ¬ TargetOk { ready with cmd := 0x6D } ∧ TargetOk { ready with addr := 0xFE, cmd := 0x6C } := by decide

/-- OperationsLeaveOtherRegisters, OperationsReportOwnErrors: every operation answers, and addresses next to the excluded ones
are free. -/
theorem test_witness_Frame :
    (∀ i ∈ [Instr.clr, .enc, .dec, .build, .csum .txf, .csum .rxf, .vout, .vin, .send, .sendi, .geti],
      (stateOf (exec i ready)).isSome = true) ∧ ¬ StatusAddress 0x05 ∧ StatusAddress 0x04 := by decide
theorem test_witness_ResultAddress :
    ¬ ResultAddress .enc 0x0F ∧ ¬ ResultAddress .enc 0x14 ∧ ¬ ResultAddress .dec 0x10 ∧ ¬ ResultAddress .build 0x5A ∧
      ¬ ResultAddress (.csum .txf) 0x06 ∧ ¬ ResultAddress .send 0x07 ∧ ¬ ResultAddress .clr 0xFF := by
  simp [ResultAddress]

/-- TxAcceptSendsNextByte, TxErrEndsExchange: the first and the last byte. -/
theorem test_witness_Tx : (∀ s ∈ [sending, sendingLast], s.txcnt.toNat < 26 ∧ s.phase = .tx) ∧
    ({ txReady := true } : StreamSignals).txErr = false ∧ ({ txReady := true } : StreamSignals).txReady = true ∧
    ({ txReady := true, txErr := true } : StreamSignals).txErr = true := by decide

/-- RxByteStoresAndCompletes: the first byte, the 26th of a SEND, the 26th of a GETI. -/
theorem test_witness_RxByte :
    (receiving.rxcnt.toNat < 26 ∧ receiving.phase = .rx ∧ receiving.rxcnt ≠ 25) ∧
    ({ gettingLast with xop := 0x07 }.rxcnt = 25 ∧ { gettingLast with xop := 0x07 }.xop ≠ 0x09) ∧
    (gettingLast.rxcnt.toNat < 26 ∧ gettingLast.phase = .rx ∧ gettingLast.rxcnt = 25 ∧ gettingLast.xop = 0x09 ∧
      WidthOk gettingLast) ∧
    ({ rxValid := true } : StreamSignals).rxErr = false ∧ ({ rxValid := true } : StreamSignals).rxTimeout = false ∧
    ({ rxValid := true } : StreamSignals).rxValid = true := by decide

/-- RxTimeoutEndsExchange, RxErrEndsExchange: the signal together with the one it wins over. -/
theorem test_witness_RxEnd : receiving.phase = .rx ∧
    ({ rxTimeout := true, rxValid := true } : StreamSignals).rxErr = false ∧
    ({ rxTimeout := true, rxValid := true } : StreamSignals).rxTimeout = true ∧
    ({ rxErr := true, rxTimeout := true } : StreamSignals).rxErr = true := by decide

/-- SignalsOutsideTheirPhaseIgnored: each phase with the other direction's signals. -/
theorem test_witness_Ignored : State.reset.phase = .idle ∧
    (sending.phase = .tx ∧ ({ rxErr := true } : StreamSignals).txErr = false ∧
      ({ rxErr := true } : StreamSignals).txReady = false) ∧
    (receiving.phase = .rx ∧ ({ txErr := true } : StreamSignals).rxErr = false ∧
      ({ txErr := true } : StreamSignals).rxTimeout = false ∧ ({ txErr := true } : StreamSignals).rxValid = false) := by decide

/-- AnswersShortenTheExchange: the last TxAccept, and the last RxByte, after which nothing is left. -/
theorem test_witness_Answers :
    (Inv sendingLast ∧ Answered { txReady := true } sendingLast ∧
      (stateOf (streamStep { txReady := true } sendingLast)).isSome = true) ∧
    (Inv gettingLast ∧ Answered { rxValid := true } gettingLast ∧
      field eventsLeft (streamStep { rxValid := true } gettingLast) = some 0) :=
  ⟨⟨test_inv_sendingLast, .inl ⟨rfl, rfl⟩, by decide⟩, ⟨test_inv_gettingLast, .inr ⟨rfl, rfl⟩, by decide⟩⟩

/-- ExchangeDeliversResponse: the exchange of V60 with its inputs listed. -/
theorem test_witness_ExchangeDelivers :
    Inv { sending with inputs := List.replicate 26 Input.txAccept ++ frameV20.toList.map Input.rxByte ++ [.txErr] } ∧
      sending.phase = .tx ∧ sending.txcnt = 0 ∧ sending.rxcnt = 0 :=
  ⟨⟨by constructor <;> decide, by constructor <;> decide⟩, rfl, rfl, rfl⟩

/-- ExchangeEndsUnderTxLive: the checksum byte is accepted, then the read fails; both premises are used. -/
theorem test_witness_TxLive : ∃ (env : Nat → Input) (run : Nat → State), IsRun env run ∧ Inv (run 0) ∧ TxLive env run ∧
    RxLive env run ∧ (run 0).phase = .tx ∧ (run 1).phase = .rx := by
  let s1 := ((stateOf (inputStep .txAccept sendingLast)).getD sendingLast)
  let s2 := ((stateOf (inputStep .rxErr s1)).getD s1)
  let env : Nat → Input := fun n => if n = 0 then .txAccept else .rxErr
  let run : Nat → State := fun n => match n with | 0 => sendingLast | 1 => s1 | _ => s2
  refine ⟨env, run, ?_, test_inv_sendingLast, ?_, ?_, rfl, rfl⟩
  · rintro (_ | _ | n) <;> rfl
  · rintro (_ | _ | n) h
    · exact ⟨0, le_refl _, .inr ⟨_, rfl, .inl ⟨rfl, rfl⟩⟩⟩
    · cases h
    · cases h
  · rintro (_ | _ | n) h
    · cases h
    · exact ⟨1, le_refl _, .inr ⟨_, rfl, .inr ⟨rfl, rfl⟩⟩⟩
    · cases h

/-- HostReadReturnsRegisters: the ends of the four reserved ranges. -/
theorem test_witness_Reserved : ∀ a ∈ [0x14, 0x1F, 0x36, 0x3F, 0x5A, 0x5F, 0x7A, (0xFF : Byte)],
    (0x14 ≤ a.toNat ∧ a.toNat ≤ 0x1F) ∨ (0x36 ≤ a.toNat ∧ a.toNat ≤ 0x3F) ∨ (0x5A ≤ a.toNat ∧ a.toNat ≤ 0x5F) ∨
      0x7A ≤ a.toNat := by decide

/-- HostWriteStoresOneByte: busy; a legal and an illegal word; the ends of the writable ranges and their neighbours. -/
theorem test_witness_HostWrite :
    sending.busy = true ∧ State.reset.busy = false ∧ decodeWord 0x09 = .ok .geti ∧
    decodeWord 0x0A = .error (.opcodeUndefined 0x0A) ∧
    (∀ a ∈ [0x06, 0x08, 0x13, 0x20, 0x35, 0x40, 0x59, 0x60, (0x79 : Byte)], Writable a) ∧
    (∀ a ∈ [0x01, 0x05, 0x07, 0x14, 0x1F, 0x36, 0x3F, 0x5A, 0x5F, 0x7A, (0xFF : Byte)], a ≠ 0x00 ∧ ¬ Writable a) ∧
    ¬ Writable 0x00 := by decide

/-- OperandsStableWhileBusy: a dropped write, and the byte that completes GETI and changes VAL. -/
theorem test_witness_Stable : sending.busy = true ∧ (Input.write 0x08 0).rst = false ∧
    (stateOf (inputStep (.write 0x08 0) sending)).isSome = true ∧ gettingLast.busy = true ∧
    (stateOf (inputStep (.rxByte 0xD3) gettingLast)).any (fun t => t.val != gettingLast.val) = true := by decide

/-- RstResetsFromAnyState: acts that are no read and one that is. -/
theorem test_witness_Rst : (∀ a, Act.quiet ≠ .hostRead a) ∧ ∃ a, Act.hostRead 0x08 = .hostRead a := by simp

/-- ChecksumIsSumModulo256: 25 bytes and a permutation of them. -/
theorem test_witness_Checksum : (0xAA :: List.replicate 24 (0x00 : Byte)).length = 25 ∧
    (0xAA :: List.replicate 24 (0x00 : Byte)).Perm (List.replicate 24 0x00 ++ [0xAA]) := by decide

/-- EncodeFunctionOverNaturals, DecodeFunctionOverSequences, CodecRoundTrips: widths and values at the edges. -/
theorem test_witness_Codec :
    ((3 : Nat) ≠ 1 ∧ (3 : Nat) ≠ 2 ∧ (3 : Nat) ≠ 4) ∧ (2 ^ (8 * 4) ≤ 4294967296 ∧ 4294967295 < 2 ^ (8 * 4)) ∧
    ([] : List Byte).length ≠ 1 ∧ ([] : List Byte).length ≠ 2 ∧ ([] : List Byte).length ≠ 4 ∧
    [(0xE8 : Byte), 0x03].length = 2 ∧
    (WidthOk { State.reset with width := 4, val := 0xFFFFFFFF } ∧ (0xFFFFFFFF : Value).toNat < 2 ^ (8 * (4 : Byte).toNat)) := by
  decide

/-- BuiltFrameValidates: PLEN 22 with a good and with a bad target. -/
theorem test_witness_Built : { ready with plen := 22 }.plen.toNat ≤ 22 ∧ TargetOk { ready with plen := 22 } ∧
    ¬ TargetOk { ready with plen := 22, addr := 0xFF } := by decide

/-- SingleByteCorruptionCaught: V44. -/
theorem test_witness_Corruption : validationMask Config.defaultCommands frameV20 = 0 ∧ (0x02 : Byte) ≠ frameV20[3] := by decide

/-- CommandSetNeverChanges, StepKeepsInvariants, MachineNeverStops, WireCarriesValidatedFrame, ErrInfoFitsErrCode: the last
byte of a frame leaves the block. -/
theorem test_witness_Step : Inv { sendingLast with inputs := [.txAccept] } ∧ WireInv { sendingLast with inputs := [.txAccept] } ∧
    ErrInfoInv { sendingLast with inputs := [.txAccept] } ∧
    (stateOf (step { sendingLast with inputs := [.txAccept] })).isSome = true :=
  ⟨⟨by constructor <;> decide, by constructor <;> decide⟩, fun _ => ⟨[], by decide⟩, rfl, by decide⟩

end Sys2Proof.Tests
end

/-! PROOFS. The state after reset (spec 10_state.md R47). -/

namespace Sys2Proof.Machine

/-! ### What the error completion and the error cases of single operations leave -/

/-- `start()` followed by `raise E(info)` is the statements' own account of an error completion (R164, R181). -/
theorem raiseError_startOp (w : Byte) (e : ErrCode) (info : Byte) (s : State) :
    raiseError e info (startOp w s) = afterError w e info s := rfl

/-- A value cannot be encoded at an unsupported width, whatever its range (R100). -/
theorem encodeInt_of_unsupported {v w : Nat} (hw : widthSupported w = false) :
    encodeInt v w = .error .unsupportedWidth := by
  simp [encodeInt, hw]

/-- A sequence of an unsupported length cannot be decoded (R101). -/
theorem decodeInt_of_unsupported {s : List Byte} (hw : widthSupported s.length = false) :
    decodeInt s = .error .unsupportedWidth := by
  simp [decodeInt, hw]

/-- The four operations that use WIDTH report UnsupportedWidth, and change nothing else, while WIDTH is not supported
(R102, R103, R141, R142). -/
theorem exec_of_unsupportedWidth {i : Instr} {s : State} (hi : i ∈ [Instr.enc, .dec, .sendi, .geti])
    (hw : widthSupported s.width.toNat = false) :
    exec i s = .next (afterError (encodeWord i) .unsupportedWidth 0x00 s) := by
  have encoded (w : Byte) : encodedOperand (startOp w s) = .error .unsupportedWidth := encodeInt_of_unsupported hw
  have decoded : decodedOperand (startOp 0x02 s) = .error .unsupportedWidth :=
    decodeInt_of_unsupported (by simpa using hw)
  have empty : emptyOperand (startOp 0x09 s) = .error .unsupportedWidth := by simp [emptyOperand, hw]
  simp only [List.mem_cons, List.not_mem_nil, or_false] at hi
  obtain rfl | rfl | rfl | rfl := hi
  · simp only [exec, execEnc, encoded]; rfl
  · simp only [exec, execDec, decoded]; rfl
  · simp only [exec, execSendi, encoded]; rfl
  · simp only [exec, execGeti, empty]; rfl

/-- VIN reports ResponseLengthError with RXCNT as its detail unless RXCNT is 26 (R117). -/
theorem exec_vin_of_rxcnt_ne {s : State} (h : s.rxcnt ≠ 26) :
    exec .vin s = .next (afterError 0x06 .responseLength s.rxcnt s) := by
  have rejected : incomingLengthOk s.rxcnt = false := beq_false_of_ne h
  simp [exec, execVin, rejected, raiseError_startOp]

/-! ### What the host reads after reset -/

/-- Only the address 0x08 is ADDR's (R61). -/
theorem regOf_eq_addr_iff (a : Byte) : regOf a = .addr ↔ a = 0x08 := by
  constructor
  · intro h
    exact regOf_injective a 0x08 h (by simp [h])
  · rintro rfl
    rfl

/-- After reset every register but ADDR reads 0x00 (R47). -/
theorem readReg_reset (r : Reg) : readReg r State.reset = if r = .addr then 0xFF else 0x00 := by
  cases r with
  | val k => revert k; decide
  | ib i | pl i | txf i | rxf i => simp [readReg, State.reset]
  | _ => rfl

/-- The buffer TXF as reset leaves it fails the checks of the start byte and of the command code alone (R38, R47). -/
theorem validationMask_reset : validationMask Config.defaultCommands State.reset.txf = 0b0101 := by
  decide

/-- Settles O30: the fields stand in `State.reset`, a HostRead goes through the register at its address, and the operations
that fail after reset do so because WIDTH is unsupported and RXCNT is not 26. -/
theorem resetValues : Obligations.ResetValues := by
  refine ⟨?fields, ?reads, by decide, validationMask_reset, ?vin, ?widths⟩
  case fields => simp [State.reset]
  case reads =>
    intro a
    simp only [hostRead, readReg_reset, regOf_eq_addr_iff]
  case vin => exact exec_vin_of_rxcnt_ne (by decide)
  case widths =>
    intro i hi
    exact exec_of_unsupportedWidth hi (by decide)

end Sys2Proof.Machine

/-! PROOFS. Operation words: decoding by fields, the rows of the opcode table, and the illegal words
(spec 30_encoding.md R87 to R92). -/

namespace Sys2Proof

/-! ### The fields of a word as quotients and remainders (R87) -/

theorem OpWord.zero_ofByte_toNat (w : Byte) : (OpWord.ofByte w).zero.toNat = w.toNat / 32 := by
  have := w.isLt
  simp only [OpWord.ofByte, BitVec.extractLsb'_toNat, Nat.shiftRight_eq_div_pow]
  omega

theorem OpWord.b_ofByte_toNat (w : Byte) : (OpWord.ofByte w).b.toNat = w.toNat / 16 % 2 := by
  simp only [OpWord.ofByte, BitVec.extractLsb'_toNat, Nat.shiftRight_eq_div_pow]

theorem OpWord.opc_ofByte_toNat (w : Byte) : (OpWord.ofByte w).opc.toNat = w.toNat % 16 := by
  simp [OpWord.ofByte]

theorem OpWord.zero_ofByte_eq_zero_iff (w : Byte) : (OpWord.ofByte w).zero = 0 ↔ w.toNat / 32 = 0 := by
  rw [← BitVec.toNat_inj, OpWord.zero_ofByte_toNat]; rfl

theorem OpWord.b_ofByte_eq_zero_iff (w : Byte) : (OpWord.ofByte w).b = 0 ↔ w.toNat / 16 % 2 = 0 := by
  rw [← BitVec.toNat_inj, OpWord.b_ofByte_toNat]; rfl

theorem OpWord.b_ofByte_eq_one_iff (w : Byte) : (OpWord.ofByte w).b = 1 ↔ w.toNat / 16 % 2 = 1 := by
  rw [← BitVec.toNat_inj, OpWord.b_ofByte_toNat]; rfl

theorem OpWord.opc_ofByte_eq_four_iff (w : Byte) : (OpWord.ofByte w).opc = 4 ↔ w.toNat % 16 = 4 := by
  rw [← BitVec.toNat_inj, OpWord.opc_ofByte_toNat]; rfl

/-! ### The cases of R92 -/

section
variable {w : Byte}

theorem decodeWord_of_zeroBitsSet (hz : w.toNat / 32 ≠ 0) : decodeWord w = .error (.zeroBitsSet w) :=
  if_pos ((OpWord.zero_ofByte_eq_zero_iff w).not.mpr hz)

theorem decodeWord_of_opc_four (hz : w.toNat / 32 = 0) (h4 : w.toNat % 16 = 4) :
    decodeWord w = .ok (.csum (if w.toNat / 16 % 2 = 0 then .txf else .rxf)) := by
  simp only [decodeWord, (OpWord.zero_ofByte_eq_zero_iff w).mpr hz, (OpWord.opc_ofByte_eq_four_iff w).mpr h4,
    ne_eq, not_true_eq_false, if_false, if_true, Buffer.ofBit, OpWord.b_ofByte_eq_zero_iff]

theorem decodeWord_of_selectSet (hz : w.toNat / 32 = 0) (h4 : w.toNat % 16 ≠ 4) (hb : w.toNat / 16 % 2 = 1) :
    decodeWord w = .error (.bufferSelectSet w) := by
  simp only [decodeWord, (OpWord.zero_ofByte_eq_zero_iff w).mpr hz, (OpWord.opc_ofByte_eq_four_iff w).not.mpr h4,
    (OpWord.b_ofByte_eq_one_iff w).mpr hb, ne_eq, not_true_eq_false, if_false, if_true]

/-- With bits 7:4 clear and `opc` at most 9 the word names a row of R88 by its number. -/
theorem decodeWord_of_opc_le (hz : w.toNat / 32 = 0) (hb : w.toNat / 16 % 2 = 0) (h9 : w.toNat % 16 ≤ 9) :
    (decodeWord w).toOption =
      [Instr.clr, .enc, .dec, .build, .csum .txf, .vout, .vin, .send, .sendi, .geti][w.toNat % 16]? := by
  obtain ⟨n, hn, rfl⟩ : ∃ n ≤ 9, w = BitVec.ofNat 8 n :=
    ⟨w.toNat, by omega, by simp⟩
  interval_cases n <;> rfl

theorem decodeWord_of_lt_opc (hz : w.toNat / 32 = 0) (hb : w.toNat / 16 % 2 = 0) (h9 : 9 < w.toNat % 16) :
    decodeWord w = .error (.opcodeUndefined w) := by
  have h4 : (OpWord.ofByte w).opc ≠ 4 := (OpWord.opc_ofByte_eq_four_iff w).not.mpr (by omega)
  have hb' : (OpWord.ofByte w).b ≠ 1 := (OpWord.b_ofByte_eq_one_iff w).not.mpr (by omega)
  obtain ⟨k, hk⟩ : ∃ k, w.toNat % 16 = k + 10 := ⟨w.toNat % 16 - 10, by omega⟩
  simp only [decodeWord, (OpWord.zero_ofByte_eq_zero_iff w).mpr hz, h4, hb', ne_eq, not_true_eq_false, if_false,
    OpWord.opc_ofByte_toNat, hk]

/-- The three ways R89 lists for a word to be illegal; each of them is refused. -/
theorem decodeWord_error_of_illegal
    (h : w.toNat / 32 ≠ 0 ∨ 10 ≤ w.toNat % 16 ∨ (w.toNat / 16 % 2 = 1 ∧ w.toNat % 16 ≠ 4)) :
    ∃ e, decodeWord w = .error e := by
  by_cases hz : w.toNat / 32 = 0
  · by_cases hs : w.toNat / 16 % 2 = 1 ∧ w.toNat % 16 ≠ 4
    · exact ⟨_, decodeWord_of_selectSet hz hs.2 hs.1⟩
    · exact ⟨_, decodeWord_of_lt_opc hz (by omega) (by omega)⟩
  · exact ⟨_, decodeWord_of_zeroBitsSet hz⟩

end

/-! ### The words of the operations (R88) -/

@[simp] theorem decodeWord_encodeWord (i : Instr) : decodeWord (encodeWord i) = .ok i := by
  cases i with
  | csum buf => cases buf <;> rfl
  | _ => rfl

/-- No word outside 0..9 and 20 escapes the three ways of R89. -/
theorem toNat_of_decodeWord_eq_ok {w : Byte} {i : Instr} (h : decodeWord w = .ok i) : w.toNat ≤ 9 ∨ w.toNat = 20 := by
  by_contra outside
  have := w.isLt
  obtain ⟨e, he⟩ := decodeWord_error_of_illegal (w := w) (by omega)
  cases he.symm.trans h

/-- Every operation has exactly one word. -/
theorem decodeWord_eq_ok_iff {w : Byte} {i : Instr} : decodeWord w = .ok i ↔ w = encodeWord i := by
  constructor
  · intro h
    obtain ⟨n, hn, rfl⟩ : ∃ n, (n ≤ 9 ∨ n = 20) ∧ w = BitVec.ofNat 8 n :=
      ⟨w.toNat, toNat_of_decodeWord_eq_ok h, by simp⟩
    obtain hn | rfl := hn
    · interval_cases n <;> obtain rfl := Except.ok.inj h <;> rfl
    · obtain rfl := Except.ok.inj h
      rfl
  · rintro rfl
    exact decodeWord_encodeWord i

/-- The operations in the order of the opcode table, CSUM at both values of its field `b` (R88). -/
def Instr.all : List Instr :=
  [.clr, .enc, .dec, .build, .csum .txf, .csum .rxf, .vout, .vin, .send, .sendi, .geti]

@[simp] theorem Instr.mem_all (i : Instr) : i ∈ Instr.all := by
  cases i with
  | csum buf => cases buf <;> simp [Instr.all]
  | _ => simp [Instr.all]

theorem exists_decodeWord_eq_ok_iff (w : Byte) : (∃ i, decodeWord w = .ok i) ↔ w ∈ Instr.all.map encodeWord := by
  simp [decodeWord_eq_ok_iff, eq_comm (a := w)]

/-! ### The rows of the opcode table (R88) -/

/-- An operation's own word lies in its row. -/
theorem encodeWord_and_rowMask (i : Instr) : encodeWord i &&& i.rowMask = i.rowMatch := by
  cases i with
  | csum buf => exact (Laws.RowMatch.csum buf).2
  | _ => rfl

/-- CSUM's row alone leaves a bit of the word open. -/
theorem Instr.rowMask_cases (i : Instr) : i.rowMask = BitVec.allOnes 8 ∨ ∃ buf, i = .csum buf := by
  cases i with
  | csum buf => exact .inr ⟨buf, rfl⟩
  | _ => exact .inl rfl

/-- The mask 0xEF of CSUM's row leaves open bit 4, the field `b` (R87). -/
theorem eq_encodeWord_csum_of_and_mask {w : Byte} (h : w &&& 0xEF = 0x04) : ∃ buf, w = encodeWord (.csum buf) := by
  have : w = 0x04 ∨ w = 0x14 := by revert w; decide
  obtain rfl | rfl := this
  · exact ⟨.txf, rfl⟩
  · exact ⟨.rxf, rfl⟩

/-- A row holds no word but those of its own operations. -/
theorem exists_encodeWord_of_and_rowMask {w : Byte} {i : Instr} (h : w &&& i.rowMask = i.rowMatch) :
    ∃ j, w = encodeWord j ∧ j.rowMatch = i.rowMatch ∧ j.rowMask = i.rowMask := by
  obtain full | ⟨buf, rfl⟩ := i.rowMask_cases
  · have own := encodeWord_and_rowMask i
    rw [full, BitVec.and_allOnes] at h own
    exact ⟨i, h.trans own.symm, rfl, rfl⟩
  · obtain ⟨b, hb⟩ := eq_encodeWord_csum_of_and_mask h
    exact ⟨.csum b, hb, rfl, rfl⟩

/-- Settles O2: a word in a row is the word of an operation of that row and conversely, and the legal words are the words of
all operations. -/
theorem wordSelectsItsRow : Obligations.WordSelectsItsRow := by
  refine ⟨fun w i => ⟨fun h => ?inRow, ?ofRow⟩, ?legal⟩
  case inRow =>
    obtain ⟨j, hw, row⟩ := exists_encodeWord_of_and_rowMask h
    exact ⟨j, decodeWord_eq_ok_iff.mpr hw, row⟩
  case ofRow =>
    rintro ⟨j, hj, hmatch, hmask⟩
    rw [decodeWord_eq_ok_iff.mp hj, ← hmask, ← hmatch]
    exact encodeWord_and_rowMask j
  case legal => exact exists_decodeWord_eq_ok_iff

/-- Settles O1: each clause is one case of R92. -/
theorem wordDecodesByFields : Obligations.WordDecodesByFields := fun _ =>
  ⟨fun hz => ⟨_, decodeWord_of_zeroBitsSet hz⟩,
    decodeWord_of_opc_four,
    fun hz h4 hb => ⟨_, decodeWord_of_selectSet hz h4 hb⟩,
    fun hz _ hb h9 => decodeWord_of_opc_le hz hb h9,
    fun hz _ hb h9 => ⟨_, decodeWord_of_lt_opc hz hb h9⟩⟩

namespace Machine

/-! ### The write of an illegal word to OP (R89, R163) -/

/-- A write to OP while idle is the start of an operation (R161, R164). -/
theorem hostWrite_op_of_idle {w : Byte} {s : State} (hb : s.busy = false) : hostWrite 0x00 w s = opWrite w s := by
  rw [hostWrite, if_neg (by simp [hb]), if_pos ((regOf_eq_op_iff 0x00).mpr rfl)]

theorem opWrite_of_error {w : Byte} {e : DecodeError} (he : decodeWord w = .error e) (s : State) :
    opWrite w s = .next (afterError w .illegalOperation w s) := by
  simp [opWrite, he, execIllegal, raiseError_startOp]

/-- Settles O3: the decoder refuses a word illegal in one of R89's ways, and the refused word is reported. -/
theorem illegalWordReportsIllegalOperation : Obligations.IllegalWordReportsIllegalOperation := by
  refine ⟨fun w s illegal idle => ?report, ?count⟩
  case report =>
    obtain ⟨e, he⟩ := decodeWord_error_of_illegal illegal
    rw [hostWrite_op_of_idle idle, opWrite_of_error he]
  case count => decide +kernel

end Machine
end Sys2Proof

/-! PROOFS. The integer codec: `decode` over all byte sequences, and the operations ENC and DEC
(spec 40_integer_codec.md R100 to R103). -/

namespace Sys2Proof.Machine

/-! ### The supported widths and lengths (R25, R101) -/

theorem widthOk_iff (s : State) : WidthOk s ↔ widthSupported s.width.toNat = true := by
  simp only [WidthOk, widthSupported_iff, ← BitVec.toNat_inj]
  rfl

theorem decodeInt_of_supported {s : List Byte} (hw : widthSupported s.length = true) :
    decodeInt s = .ok (leDecode s) := by
  simp [decodeInt, hw]

/-- Settles O34: `le_decode` is the sum of R12 and lies below `2^(8 len)`. -/
theorem decodeFunctionOverSequences : Obligations.DecodeFunctionOverSequences := by
  intro s
  refine ⟨fun h1 h2 h4 => ?unsupported, fun hlen => ⟨?sum, ?bound⟩⟩
  case unsupported => exact decodeInt_of_unsupported (by simp [widthSupported, h1, h2, h4])
  case sum => rw [decodeInt_of_supported ((widthSupported_iff _).mpr hlen), leDecode_eq_sum]
  case bound =>
    rw [← leDecode_eq_sum]
    exact Nat.le_sub_one_of_lt (leDecode_lt s)

/-! ### ENC (R102) -/

/-- A byte of an encoding is the bits `8i+7 .. 8i` of the value (R102). -/
theorem leEncode_getElem_eq_extractLsb' (v : Value) (w i : Nat) (h : i < (leEncode v.toNat w).length) :
    (leEncode v.toNat w)[i] = v.extractLsb' (8 * i) 8 := by
  rw [leEncode_getElem, BitVec.extractLsb', Nat.shiftRight_eq_div_pow]

/-- Putting the same bytes a second time changes nothing. -/
theorem putBytes_putBytes_same {n : Nat} (buf : Vector Byte n) (off : Nat) (b : List Byte) :
    putBytes (putBytes buf off b) off b = putBytes buf off b := by
  ext1 i hi
  by_cases inside : off ≤ i ∧ i < off + b.length
  · obtain ⟨hoff, hlen⟩ := inside
    rw [putBytes_inside _ off i b hi hoff (by omega), putBytes_inside _ off i b hi hoff (by omega)]
  · rw [putBytes_outside _ off i b hi (by omega)]

section
variable {s : State}

theorem exec_enc_of_error {e : ErrCode} (h : encodeInt s.val.toNat s.width.toNat = .error e) :
    exec .enc s = .next (afterError 0x01 e 0x00 s) := by
  have operand : encodedOperand (startOp 0x01 s) = .error e := h
  simp only [exec, execEnc, operand, raiseError_startOp]

theorem exec_enc_of_ok {b : List Byte} (h : encodeInt s.val.toNat s.width.toNat = .ok b) :
    exec .enc s = .next { afterOk 0x01 s with ib := putBytes s.ib 0 b } := by
  have operand : encodedOperand (startOp 0x01 s) = .ok b := h
  simp only [exec, execEnc, operand]
  rfl

/-- ENC changes neither of its operands VAL and WIDTH, so a second ENC has the same outcome and puts the same bytes. -/
theorem exec_enc_idempotent {t : State} (h : exec .enc s = .next t) : exec .enc t = .next t := by
  cases henc : encodeInt s.val.toNat s.width.toNat with
  | error e =>
    obtain rfl := Host.Outcome.next.inj ((exec_enc_of_error henc).symm.trans h)
    exact exec_enc_of_error henc
  | ok b =>
    have ht := Host.Outcome.next.inj (h.symm.trans (exec_enc_of_ok henc))
    have again : encodeInt t.val.toNat t.width.toNat = .ok b := by rw [ht]; exact henc
    rw [exec_enc_of_ok again, ht]
    simp only [putBytes_putBytes_same]
    rfl

end

/-- The bytes ENC puts into IB, and those it leaves. -/
theorem putBytes_leEncode_getElem (buf : Vector Byte 4) (v : Value) (w : Nat) (i : Fin 4) :
    (putBytes buf 0 (leEncode v.toNat w))[i] = if i.val < w then v.extractLsb' (8 * i.val) 8 else buf[i] := by
  by_cases hi : i.val < w
  · rw [if_pos hi, ← leEncode_getElem_eq_extractLsb' v w i (by simpa using hi)]
    exact putBytes_inside buf 0 i _ i.isLt (Nat.zero_le _) (by simpa using hi)
  · rw [if_neg hi]
    exact putBytes_outside buf 0 i _ i.isLt (by simpa using hi)

/-- Settles O7: each clause is one answer of `encode`, and ENC keeps its operands. -/
theorem encPacksLittleEndian : Obligations.EncPacksLittleEndian := by
  refine ⟨rfl, fun s => ?_⟩
  simp only [widthOk_iff]
  refine ⟨fun hw => ?width, fun hw hv => ?range, fun hw hv => ?packed, fun t => exec_enc_idempotent⟩
  case width => exact exec_of_unsupportedWidth (by simp) (Bool.eq_false_of_not_eq_true hw)
  case range => exact exec_enc_of_error (by simp [encodeInt, hw, hv])
  case packed =>
    have henc : encodeInt s.val.toNat s.width.toNat = .ok (leEncode s.val.toNat s.width.toNat) := by
      simp [encodeInt, hw, hv]
    exact ⟨_, exec_enc_of_ok henc, putBytes_leEncode_getElem s.ib s.val s.width.toNat⟩

/-! ### DEC (R103) -/

theorem exec_dec_of_supported {s : State} (hw : widthSupported s.width.toNat = true) :
    exec .dec s =
      .next { afterOk 0x02 s with val := BitVec.ofNat 32 (leDecode (bytesAt s.ib 0 s.width.toNat)) } := by
  have operand : decodedOperand (startOp 0x02 s) = .ok (leDecode (bytesAt s.ib 0 s.width.toNat)) :=
    decodeInt_of_supported (by simpa using hw)
  simp only [exec, execDec, operand]
  rfl

/-- Bytes written side by side weigh as in `le_decode`: the right one is the least significant (R12). -/
theorem toNat_append_byte {n : Nat} (hi : BitVec n) (lo : Byte) : (hi ++ lo).toNat = lo.toNat + 256 * hi.toNat := by
  rw [BitVec.toNat_append, ← Nat.shiftLeft_add_eq_or_of_lt lo.isLt, Nat.shiftLeft_eq]
  omega

@[simp] theorem bytesAt_zero {n : Nat} (buf : Vector Byte n) (off : Nat) : bytesAt buf off 0 = [] := rfl

/-- `le_decode` of the first bytes of IB in 32 bits is the little-endian integer with zeros above the width (R103). -/
theorem ofNat_leDecode_bytesAt (ib : Vector Byte 4) {w : Nat} (hw : widthSupported w = true) :
    BitVec.ofNat 32 (leDecode (bytesAt ib 0 w)) = littleEndian w ib[0] ib[1] ib[2] ib[3] := by
  apply BitVec.eq_of_toNat_eq
  obtain rfl | rfl | rfl := (widthSupported_iff w).mp hw <;>
    simp [bytesAt_succ, leDecode, littleEndian, toNat_append_byte]
  case inr.inr =>
    -- four bytes fit the 32 bits of VAL
    omega

/-- Settles O8: DEC by the width, and the value it writes byte by byte. -/
theorem decUnpacksLittleEndian : Obligations.DecUnpacksLittleEndian := by
  refine ⟨rfl, fun s => ?_⟩
  simp only [widthOk_iff]
  refine ⟨fun hw => ?width, fun hw => ?unpacked⟩
  case width => exact exec_of_unsupportedWidth (by simp) (Bool.eq_false_of_not_eq_true hw)
  case unpacked => rw [exec_dec_of_supported hw, ofNat_leDecode_bytesAt s.ib hw]

end Sys2Proof.Machine

/-! PROOFS. The frame codec: the checksum, the frame BUILD lays out, and the operations BUILD, CSUM, VOUT and VIN
(spec 41_frame_codec.md R110 to R117). -/

namespace Sys2Proof.Machine

/-! ### The checksum (R110) -/

theorem checksum_cons (b : Byte) (s : List Byte) : checksum (b :: s) = b + checksum s := by
  apply BitVec.eq_of_toNat_eq
  simp

/-- An 8-bit accumulator that starts at `a` adds the checksum to it. -/
theorem foldl_add_eq_add_checksum (s : List Byte) (a : Byte) : s.foldl (· + ·) a = a + checksum s := by
  induction s generalizing a with
  | nil => exact (BitVec.add_zero a).symm
  | cons b s ih => rw [List.foldl_cons, ih, checksum_cons, BitVec.add_assoc]

theorem checksum_of_perm {r s : List Byte} (h : s.Perm r) : checksum r = checksum s :=
  congrArg (BitVec.ofNat 8) (h.map BitVec.toNat).sum_eq.symm

/-- No byte adds more than 255 to the exact sum. -/
theorem sum_map_toNat_le (s : List Byte) : (s.map BitVec.toNat).sum ≤ s.length * 255 := by
  have bytes : ∀ n ∈ s.map BitVec.toNat, n ≤ 255 := by
    intro n hn
    obtain ⟨b, -, rfl⟩ := List.mem_map.mp hn
    exact Nat.le_of_lt_succ b.isLt
  simpa using List.sum_le_card_nsmul _ _ bytes

/-- Settles O32: the accumulator of R110 adds byte by byte what the exact sum adds at once. -/
theorem checksumIsSumModulo256 : Obligations.ChecksumIsSumModulo256 := by
  intro s hlen
  refine ⟨checksum_toNat s, ?accumulator, fun r => checksum_of_perm, ?bound⟩
  case accumulator => exact ((foldl_add_eq_add_checksum s 0).trans (BitVec.zero_add _)).symm
  case bound => simpa [hlen] using sum_map_toNat_le s

/-- The checksum over a 26-byte buffer is the exact sum of its bytes 0 to 24, reduced (R85, R110). -/
theorem checksum_bytesAt_eq_frameSum (f : Vector Byte 26) : checksum (bytesAt f 0 25) = BitVec.ofNat 8 (frameSum f) := by
  have bytes : bytesAt f 0 25 = List.ofFn fun i : Fin 25 => f[i.val] := by
    apply List.ext_getElem (by simp)
    intro i hi _
    rw [bytesAt_length] at hi
    rw [bytesAt_getElem f 0 25 i _ (by omega), List.getElem_ofFn]
    simp only [Nat.zero_add]
  simp only [checksum, frameSum, bytes, List.map_ofFn, List.sum_ofFn, Function.comp_def]

/-! ### CSUM (R113) -/

/-- Settles O10: CSUM's operand is the first 25 bytes of the buffer that the word selects. -/
theorem csumSumsSelectedBuffer : Obligations.CsumSumsSelectedBuffer := by
  refine ⟨rfl, rfl, fun s => ⟨?txf, ?rxf⟩⟩
  case txf => rw [← checksum_bytesAt_eq_frameSum]; rfl
  case rxf => rw [← checksum_bytesAt_eq_frameSum]; rfl

/-! ### VIN (R117) -/

theorem exec_vin_of_rxcnt_eq {s : State} (h : s.rxcnt = 26) : exec .vin s = .next (afterOk 0x06 s) := by
  have accepted : incomingLengthOk s.rxcnt = true := beq_iff_eq.mpr h
  simp only [exec, execVin, startOp_rxcnt, accepted, if_true]
  rfl

/-- Settles O12: RXCNT alone decides, between the two outcomes of VIN. -/
theorem vinChecksReceivedLength : Obligations.VinChecksReceivedLength :=
  ⟨rfl, fun _ => ⟨exec_vin_of_rxcnt_eq, exec_vin_of_rxcnt_ne⟩⟩

/-! ### VOUT (R114, R116) -/

/-- The checksum test of the mask compares byte 25 with the exact sum of the other bytes, reduced. -/
theorem bne_checksum_eq (f : Vector Byte 26) :
    (f[25] != checksum (bytesAt f 0 25)) = (f[25].toNat != frameSum f % 256) := by
  rw [checksum_bytesAt_eq_frameSum, Bool.eq_iff_iff, bne_iff_ne, bne_iff_ne, ne_eq, ne_eq, ← BitVec.toNat_inj,
    BitVec.toNat_ofNat]

/-- The mask is fixed by its four bits, each the outcome of one test (R12). -/
theorem validationMask_eq {set : CommandSet} {f : Vector Byte 26} {m : BitVec 4}
    (start : m[0] = (f[0] != 0xAA)) (address : m[1] = (f[1] == 0xFF)) (command : m[2] = !set.admits f[2])
    (sum : m[3] = (f[25].toNat != frameSum f % 256)) : validationMask set f = m := by
  obtain ⟨b0, b1, b2, b3⟩ :=
    maskOf_bits (f[0] != 0xAA) (f[1] == 0xFF) (!set.admits f[2]) (f[25].toNat != frameSum f % 256)
  rw [validationMask, bne_checksum_eq]
  exact mask_ext _ _ (b0.trans start.symm) (b1.trans address.symm) (b2.trans command.symm) (b3.trans sum.symm)

/-- Of a mask with a failing check the last reason needs no test of its own bit. -/
theorem reason_of_ne_zero {m : BitVec 4} (h : m ≠ 0) :
    reason m = if m[0] then (1 : Byte) else if m[1] then 2 else if m[2] then 3 else 4 := by
  revert m; decide

section
variable {s : State}

theorem exec_vout_of_valid (h : validationMask s.cmdAllowed s.txf = 0) :
    exec .vout s = .next (afterOk 0x05 s) := by
  obtain ⟨-, passed⟩ | ⟨failing, -⟩ := validateThen_cases completeOk (startOp 0x05 s)
  · exact congrArg Host.Outcome.next passed
  · exact absurd h failing

theorem exec_vout_of_invalid {m : BitVec 4} (hm : validationMask s.cmdAllowed s.txf = m) (h : m ≠ 0) :
    exec .vout s = .next { afterError 0x05 .invalidFrame (reason m) s with vmask := m } := by
  subst hm
  obtain ⟨valid, -⟩ | ⟨-, failed⟩ := validateThen_cases completeOk (startOp 0x05 s)
  · exact absurd valid h
  · exact congrArg Host.Outcome.next failed

/-- VOUT changes neither TXF nor the allowed commands, so a second VOUT finds the same mask (R116). -/
theorem exec_vout_idempotent {t : State} (h : exec .vout s = .next t) : exec .vout t = .next t := by
  by_cases hm : validationMask s.cmdAllowed s.txf = 0
  · obtain rfl := Host.Outcome.next.inj ((exec_vout_of_valid hm).symm.trans h)
    exact exec_vout_of_valid hm
  · obtain rfl := Host.Outcome.next.inj ((exec_vout_of_invalid rfl hm).symm.trans h)
    exact exec_vout_of_invalid rfl hm

end

/-- Settles O11: the mask with the four stated bits is the one VOUT tests, and VOUT keeps what it tests. -/
theorem voutReportsFailedChecks : Obligations.VoutReportsFailedChecks := by
  refine ⟨rfl, fun s m start address command sum => ?_⟩
  have hm : validationMask s.cmdAllowed s.txf = m := validationMask_eq start address command sum
  refine ⟨fun h => ?valid, fun h => ?invalid, fun t => exec_vout_idempotent⟩
  case valid => exact exec_vout_of_valid (hm.trans h)
  case invalid => rw [exec_vout_of_invalid hm h, reason_of_ne_zero h]

/-! ### The frame as it stands in TXF (R80 to R85, R111) -/

/-- A sequence put at the start of a buffer is read back from there. -/
theorem bytesAt_putBytes_append {n : Nat} (buf : Vector Byte n) (b c : List Byte) (h : b.length ≤ n) :
    bytesAt (putBytes buf 0 (b ++ c)) 0 b.length = b := by
  apply List.ext_getElem (by simp)
  intro i hi hb
  rw [bytesAt_getElem _ 0 _ i hi (by omega), putBytes_inside _ 0 _ _ (by omega) (by omega) (by simp; omega)]
  simp [List.getElem_append_left hb]

/-- The payload bytes of a frame: the payload, then zeros up to offset 24 (R84). -/
theorem frame_getElem_payload (a c : Byte) (p : List Byte) (i : Fin 22) (h : 3 + i.val < (frame a c p).length) :
    (frame a c p)[3 + i.val] = p.getD i.val 0x00 := by
  simp only [frame, frameBody, List.cons_append, List.nil_append, List.append_assoc, Nat.add_comm 3,
    List.getElem_cons_succ]
  by_cases hi : i.val < p.length
  · rw [List.getElem_append_left hi, List.getD_eq_getElem _ _ hi]
  · have padding : i.val - p.length < (List.replicate (22 - p.length) (0x00 : Byte)).length := by simp; omega
    rw [List.getElem_append_right (by omega), List.getElem_append_left padding, List.getElem_replicate,
      List.getD_eq_default _ _ (by omega)]

/-- A frame put into a 26-byte buffer stands there offset by offset, whatever the buffer held. -/
theorem isFrame_putBytes_frame (buf : Vector Byte 26) (a c : Byte) {p : List Byte} (hp : p.length ≤ 22) :
    IsFrame (putBytes buf 0 (frame a c p)) a c fun i => p.getD i.val 0x00 := by
  have len := frame_length a c p hp
  have byte (i : Nat) (hi : i < 26) : (putBytes buf 0 (frame a c p))[i] = (frame a c p)[i] :=
    putBytes_inside buf 0 i _ hi (Nat.zero_le i) (by omega)
  have body : bytesAt (putBytes buf 0 (frame a c p)) 0 25 = frameBody a c p := by
    have := bytesAt_putBytes_append buf (frameBody a c p) [checksum (frameBody a c p)]
    rw [frameBody_length a c p hp] at this
    exact this (by decide)
  refine ⟨byte 0 _, byte 1 _, byte 2 _, fun i => ?payload, ?sum⟩
  case payload => rw [byte, frame_getElem_payload]
  case sum =>
    have last : (frame a c p)[25] = checksum (frameBody a c p) := by
      simp [frame, frameBody_length a c p hp]
    rw [byte, last, ← body, checksum_bytesAt_eq_frameSum, BitVec.toNat_ofNat]

/-! ### BUILD (R111, R112) -/

theorem buildThen_ok_of_long {p : List Byte} (h : 22 < p.length) (rest : State → State) (s : State) :
    buildThen (.ok p) rest s = raiseError .payloadTooLong 0 s := by
  simp [buildThen, buildFrame, h]

theorem buildThen_ok_of_fits {p : List Byte} (h : p.length ≤ 22) (rest : State → State) (s : State) :
    buildThen (.ok p) rest s = rest { s with txf := putBytes s.txf 0 (frame s.addr s.cmd p) } := by
  simp [buildThen, buildFrame, Nat.not_lt.mpr h]

@[simp] theorem payloadOperand_length (s : State) : (payloadOperand s).length = s.plen.toNat := bytesAt_length _ _ _

/-- The payload operand continued with zeros is the payload of the statements (R84). -/
theorem payloadOperand_getD (s : State) (i : Fin 22) :
    (payloadOperand s).getD i.val 0x00 = paddedPl s i := by
  by_cases hi : i.val < s.plen.toNat
  · have inside : i.val < (payloadOperand s).length := by simpa using hi
    rw [List.getD_eq_getElem _ _ inside, paddedPl, if_pos hi]
    simp only [payloadOperand, bytesAt_getElem s.pl 0 _ i _ (by omega), Nat.zero_add, Fin.getElem_fin]
  · have past : (payloadOperand s).length ≤ i.val := by simpa using hi
    rw [List.getD_eq_default _ _ past, paddedPl, if_neg hi]

section
variable {s : State}

theorem exec_build_of_payloadTooLong (h : 22 < s.plen.toNat) :
    exec .build s = .next (afterError 0x03 .payloadTooLong 0x00 s) :=
  congrArg Host.Outcome.next (buildThen_ok_of_long (by simpa using h) completeOk (startOp 0x03 s))

theorem exec_build_of_fits (h : s.plen.toNat ≤ 22) :
    exec .build s =
      .next { afterOk 0x03 s with txf := putBytes s.txf 0 (frame s.addr s.cmd (payloadOperand s)) } :=
  congrArg Host.Outcome.next (buildThen_ok_of_fits (by simpa using h) completeOk (startOp 0x03 s))

end

/-- Settles O9: the frame of ADDR, CMD and the payload operand stands in TXF, and the operand is PL padded with zeros. -/
theorem buildAssemblesFrame : Obligations.BuildAssemblesFrame := by
  refine ⟨rfl, fun s => ⟨exec_build_of_payloadTooLong, fun h => ⟨_, exec_build_of_fits h, ?frame⟩⟩⟩
  case frame =>
    have laid := isFrame_putBytes_frame s.txf s.addr s.cmd (p := payloadOperand s) (by simpa using h)
    rwa [funext (payloadOperand_getD s)] at laid

end Sys2Proof.Machine

/-! PROOFS. The steps of an exchange on the stream's answers: a failed write, a received byte, the end of the read
(spec 42_command_transport.md R135 to R139). -/

namespace Sys2Proof.Machine

/-! ### Which answer of the stream a step heeds (R64, R65) -/

section
variable {g : StreamSignals} {s : State}

theorem streamStep_of_tx (hp : s.phase = .tx) : streamStep g s = txStep g.txAnswer s := by
  simp only [streamStep, hp]

theorem streamStep_of_rx (hp : s.phase = .rx) : streamStep g s = rxStep g.rxAnswer s := by
  simp only [streamStep, hp]

/-- `TxErr` wins over `TxAccept` (R64, R180 c). -/
theorem streamStep_of_txErr (hp : s.phase = .tx) (he : g.txErr = true) : streamStep g s = onTxErr s := by
  have answer : g.txAnswer = some .err := if_pos he
  rw [streamStep_of_tx hp, answer, txStep]

/-- `RxErr` wins over the other answers to a read (R65, R180 c). -/
theorem streamStep_of_rxErr (hp : s.phase = .rx) (he : g.rxErr = true) : streamStep g s = onRxErr s := by
  have answer : g.rxAnswer = some .err := if_pos he
  rw [streamStep_of_rx hp, answer, rxStep]

/-- `RxTimeout` wins over a byte offered at the same moment (R65, R180 c). -/
theorem streamStep_of_rxTimeout (hp : s.phase = .rx) (he : g.rxErr = false) (ht : g.rxTimeout = true) :
    streamStep g s = onRxTimeout s := by
  have answer : g.rxAnswer = some .timeout := by simp [StreamSignals.rxAnswer, he, ht]
  rw [streamStep_of_rx hp, answer, rxStep]

theorem streamStep_of_rxValid (hp : s.phase = .rx) (he : g.rxErr = false) (ht : g.rxTimeout = false)
    (hv : g.rxValid = true) : streamStep g s = onRxByte g.rxData s := by
  have answer : g.rxAnswer = some (.byte g.rxData) := by simp [StreamSignals.rxAnswer, he, ht, hv]
  rw [streamStep_of_rx hp, answer, rxStep]

end

/-! ### The exchange ends with an error (R135, R137, R139) -/

/-- Settles O19: TxErr alone decides the step, which touches neither counter, and the invariant of the TX phase bounds
TXCNT and keeps RXCNT at 0. -/
theorem txErrEndsExchange : Obligations.TxErrEndsExchange := by
  intro s g hp he
  have failed : streamStep g s = onTxErr s := streamStep_of_txErr hp he
  refine ⟨failed, fun hinv t ht => ?counters⟩
  case counters =>
    obtain rfl := Host.Outcome.next.inj (failed.symm.trans ht)
    exact ⟨hinv.status.tx_offset hp, hinv.exchange.unread_in_tx hp⟩

/-- Settles O21: RxTimeout decides the step, whose detail is RXCNT, at most 25 in the RX phase. -/
theorem rxTimeoutEndsExchange : Obligations.RxTimeoutEndsExchange := by
  intro s g hp he hto
  have timedOut : streamStep g s = onRxTimeout s := streamStep_of_rxTimeout hp he hto
  refine ⟨timedOut, fun hinv t ht => ?detail⟩
  case detail =>
    obtain rfl := Host.Outcome.next.inj (timedOut.symm.trans ht)
    obtain ⟨-, received⟩ := hinv.status.rx_offset hp
    exact received

/-- Settles O22: RxErr alone decides the step. -/
theorem rxErrEndsExchange : Obligations.RxErrEndsExchange :=
  fun _ _ hp he => streamStep_of_rxErr hp he

/-! ### The bytes of the response (R136) -/

section
variable {s : State}

theorem onRxByte_of_not_last (b : Byte) (h : s.rxcnt.toNat < 26) (hn : s.rxcnt ≠ 25) :
    onRxByte b s = .next { s with rxf := s.rxf.set s.rxcnt.toNat b, rxcnt := s.rxcnt + 1 } := by
  have more : s.rxcnt + 1 ≠ 26 := (count_succ_eq_26 s.rxcnt).not.mpr hn
  simp only [onRxByte, h, dite_true, if_neg more]

theorem onRxByte_of_last (b : Byte) (h25 : s.rxcnt = 25) :
    onRxByte b s = completeExchange { s with rxf := s.rxf.set 25 b, rxcnt := 26 } := by
  simp [onRxByte, h25]

/-! ### The completion (R138) -/

theorem completeExchange_of_xop_ne (hx : s.xop ≠ 0x09) : completeExchange s = .next (completeOk (endExchange s)) :=
  if_neg hx

theorem completeExchange_of_geti (hx : s.xop = 0x09) (hw : widthSupported s.width.toNat = true) :
    completeExchange s =
      .next (completeOk { endExchange s with
        val := BitVec.ofNat 32 (leDecode (bytesAt s.rxf 3 s.width.toNat)) }) := by
  have decoded : responseInteger (endExchange s) = .ok (leDecode (bytesAt s.rxf 3 s.width.toNat)) :=
    decodeInt_of_supported (by simpa using hw)
  simp [completeExchange, hx, decoded]

end

/-- At most four bytes from an offset on are the first bytes of the four-byte buffer cut out there. -/
theorem bytesAt_eq_bytesAt_ofFn {n : Nat} (buf : Vector Byte n) (off w : Nat) (hoff : off + 4 ≤ n) (hw : w ≤ 4) :
    bytesAt buf off w = bytesAt (Vector.ofFn fun i : Fin 4 => buf[off + i.val]) 0 w := by
  apply List.ext_getElem (by simp)
  intro i hi _
  rw [bytesAt_length] at hi
  rw [bytesAt_getElem buf off w i _ (by omega), bytesAt_getElem _ 0 w i _ (by omega), Vector.getElem_ofFn]
  simp only [Nat.zero_add]

/-- The response integer is the little-endian integer in `RXF[3 .. 3+w-1]` with zeros above the width (R138). -/
theorem ofNat_leDecode_response (rxf : Vector Byte 26) {w : Nat} (hw : widthSupported w = true) :
    BitVec.ofNat 32 (leDecode (bytesAt rxf 3 w)) = littleEndian w rxf[3] rxf[4] rxf[5] rxf[6] := by
  have fits : w ≤ 4 := by
    have := (widthSupported_iff w).mp hw
    omega
  rw [bytesAt_eq_bytesAt_ofFn rxf 3 w (by decide) fits, ofNat_leDecode_bytesAt _ hw]
  simp only [Vector.getElem_ofFn]

/-- Settles O20: RXCNT alone tells whether the byte is the last, and XOP alone whether the response is decoded; the 26th byte
lies behind the bytes that GETI decodes. -/
theorem rxByteStoresAndCompletes : Obligations.RxByteStoresAndCompletes := by
  intro s g h hp he ht hv
  rw [streamStep_of_rxValid hp he ht hv]
  refine ⟨fun hn => ?stored, fun h25 hx => ?done, fun h25 hx hw => ?decoded⟩
  case stored => exact onRxByte_of_not_last g.rxData h hn
  case done =>
    rw [onRxByte_of_last g.rxData h25]
    exact completeExchange_of_xop_ne hx
  case decoded =>
    have supported : widthSupported s.width.toNat = true := (widthOk_iff s).mp hw
    have value : BitVec.ofNat 32 (leDecode (bytesAt (s.rxf.set 25 g.rxData) 3 s.width.toNat)) =
        littleEndian s.width.toNat s.rxf[3] s.rxf[4] s.rxf[5] s.rxf[6] := by
      rw [ofNat_leDecode_response _ supported]
      simp
    rw [onRxByte_of_last g.rxData h25, ← value]
    exact completeExchange_of_geti hx supported

end Sys2Proof.Machine

/-! PROOFS. The host port: what a write stores and leaves, what an operation word does to DONE and OVR, and CLR
(spec 43_host_access_and_control.md R161, R162). -/

namespace Sys2Proof.Machine

/-! ### Writes by the host (R161) -/

section
variable {a v : Byte} {s : State}

/-- While BUSY a write is dropped and flagged, whatever its address. -/
theorem hostWrite_of_busy (hb : s.busy = true) : hostWrite a v s = .next { s with ovr := true } :=
  if_pos hb

theorem hostWrite_of_idle_of_ne_op (hb : s.busy = false) (ha : a ≠ 0x00) :
    hostWrite a v s = .next (writeReg (regOf a) v s) := by
  rw [hostWrite, if_neg (by simp [hb]), if_neg ((regOf_eq_op_iff a).not.mpr ha)]

end

theorem opWrite_of_ok {w : Byte} {i : Instr} (hi : decodeWord w = .ok i) (s : State) : opWrite w s = exec i s := by
  simp only [opWrite, hi]

/-! ### The registers a write stores to (R39, R61) -/

/-- The class RW-idle as a class of registers: those that take the byte of a write while the block is idle (R39). -/
def Reg.rwIdle : Reg → Bool
  | .rxcnt | .addr | .cmd | .plen | .width | .val _ | .ib _ | .pl _ | .txf _ | .rxf _ => true
  | .op | .status | .errCode | .errInfo | .vmask | .txcnt | .csum | .reserved => false

/-- The writable addresses are those of the RW-idle registers (R61). -/
theorem rwIdle_regOf_iff (a : Byte) : (regOf a).rwIdle = true ↔ Writable a := by
  revert a; decide

section
variable {r : Reg} {v : Byte} {s : State}

/-- An RW-idle register reads as the byte written to it. -/
theorem readReg_writeReg_same (hr : r.rwIdle = true) : readReg r (writeReg r v s) = v := by
  cases r with
  | rxcnt | addr | cmd | plen | width => rfl
  | val k => exact (valByte_setValByte s.val k k v).trans (if_pos rfl)
  | ib i | pl i | txf i | rxf i => exact Vector.getElem_set_self i.isLt
  | op | status | errCode | errInfo | vmask | txcnt | csum | reserved => cases hr

/-- A register of another class ignores a write. -/
theorem writeReg_of_not_rwIdle (hr : r.rwIdle = false) : writeReg r v s = s := by
  cases r with
  | op | status | errCode | errInfo | vmask | txcnt | csum | reserved => rfl
  | rxcnt | addr | cmd | plen | width | val | ib | pl | txf | rxf => cases hr

end

/-- A write leaves every field that holds no RW-idle register. -/
theorem writeReg_eq (r : Reg) (v : Byte) (s : State) :
    writeReg r v s = { s with
      rxcnt := (writeReg r v s).rxcnt, addr := (writeReg r v s).addr, cmd := (writeReg r v s).cmd
      plen := (writeReg r v s).plen, width := (writeReg r v s).width, val := (writeReg r v s).val
      ib := (writeReg r v s).ib, pl := (writeReg r v s).pl, txf := (writeReg r v s).txf
      rxf := (writeReg r v s).rxf } := by
  cases r <;> rfl

section
variable {a b v : Byte} {s : State}

/-- A writable address reads back the byte written there. -/
theorem hostRead_writeReg_same (ha : Writable a) : hostRead a (writeReg (regOf a) v s) = v :=
  readReg_writeReg_same ((rwIdle_regOf_iff a).mpr ha)

/-- A write at a writable address changes what no other address reads as. -/
theorem hostRead_writeReg_ne (ha : Writable a) (hne : b ≠ a) :
    hostRead b (writeReg (regOf a) v s) = hostRead b s := by
  have stores : (regOf a).rwIdle = true := (rwIdle_regOf_iff a).mpr ha
  have listed : regOf a ≠ .reserved := fun h => by simp [h, Reg.rwIdle] at stores
  exact readReg_writeReg_ne _ _ v s fun h => hne (regOf_injective a b h listed).symm

end

/-! ### The addresses of the buffers' bytes (R61) -/

theorem regOf_val (k : Fin 4) : regOf (BitVec.ofNat 8 (0x0C + k.val)) = .val k := by
  revert k; decide

theorem regOf_ib (i : Fin 4) : regOf (BitVec.ofNat 8 (0x10 + i.val)) = .ib i := by
  revert i; decide

theorem regOf_pl (i : Fin 22) : regOf (BitVec.ofNat 8 (0x20 + i.val)) = .pl i := by
  revert i; decide

theorem regOf_txf (i : Fin 26) : regOf (BitVec.ofNat 8 (0x40 + i.val)) = .txf i := by
  revert i; decide

theorem regOf_rxf (i : Fin 26) : regOf (BitVec.ofNat 8 (0x60 + i.val)) = .rxf i := by
  revert i; decide

/-- Settles O28: the byte is in the named field because it is read back at its address, the map being injective on the
writable addresses. -/
theorem hostWriteStoresOneByte : Obligations.HostWriteStoresOneByte := by
  intro s a v
  refine ⟨hostWrite_of_busy, ?starts, ?illegal, fun idle writable => ?stores, fun idle notOp readOnly => ?ignored⟩
  case starts =>
    rintro idle rfl i hi
    rw [hostWrite_op_of_idle idle, opWrite_of_ok hi]
  case illegal =>
    rintro idle rfl e he
    rw [hostWrite_op_of_idle idle, opWrite_of_error he]
  case stores =>
    have notOp : a ≠ 0x00 := by rintro rfl; revert writable; decide
    have read : hostRead a (writeReg (regOf a) v s) = v := hostRead_writeReg_same writable
    have stored {b : Byte} (r : Reg) (hr : regOf b = r) : a = b → readReg r (writeReg (regOf a) v s) = v := by
      rintro rfl
      subst hr
      exact read
    exact ⟨writeReg (regOf a) v s, hostWrite_of_idle_of_ne_op idle notOp, read,
      fun b hb => hostRead_writeReg_ne writable hb,
      ⟨stored .rxcnt rfl, stored .addr rfl, stored .cmd rfl, stored .plen rfl, stored .width rfl,
        fun k => stored (.val k) (regOf_val k), fun i => stored (.ib i) (regOf_ib i), fun i => stored (.pl i) (regOf_pl i),
        fun i => stored (.txf i) (regOf_txf i), fun i => stored (.rxf i) (regOf_rxf i)⟩,
      writeReg_eq (regOf a) v s⟩
  case ignored =>
    have ignores : (regOf a).rwIdle = false := Bool.eq_false_iff.mpr ((rwIdle_regOf_iff a).not.mpr readOnly)
    rw [hostWrite_of_idle_of_ne_op idle notOp, writeReg_of_not_rwIdle ignores]

/-! ### What an operation does to DONE and OVR (R162, R164, R165) -/

/-- From `s` to `t` the overrun flag is kept, and `t` reports a completion or is in an exchange: what the operations other
than CLR share. -/
structure ReportsOrBegins (s t : State) : Prop where
  ovr_eq : t.ovr = s.ovr
  done_or_busy : t.done = true ∨ t.busy = true

theorem reportsOrBegins_raiseError {s t : State} (e : ErrCode) (info : Byte) (h : t.ovr = s.ovr) :
    ReportsOrBegins s (raiseError e info t) := ⟨h, .inl rfl⟩

theorem reportsOrBegins_completeOk {s t : State} (h : t.ovr = s.ovr) : ReportsOrBegins s (completeOk t) := ⟨h, .inl rfl⟩

theorem reportsOrBegins_issue {s t : State} (p : Except ErrCode (List Byte)) (h : t.ovr = s.ovr) :
    ReportsOrBegins s (issue p t) := by
  obtain ⟨e, -, e'⟩ | ⟨b, -, -, e'⟩ | ⟨b, f, -, -, -, -, e'⟩ | ⟨b, f, -, -, -, -, e'⟩ := issue_cases p t <;> rw [e']
  · exact reportsOrBegins_raiseError e 0 h
  · exact reportsOrBegins_raiseError _ 0 h
  · exact reportsOrBegins_raiseError _ _ h
  · exact ⟨h, .inr rfl⟩

section
variable {i : Instr} {w : Byte} {s t : State}

/-- Every operation but CLR keeps OVR and sets DONE or begins an exchange (R162). -/
theorem exec_reportsOrBegins (hi : i ≠ .clr) (h : exec i s = .next t) : ReportsOrBegins s t := by
  cases i with
  | clr => exact absurd rfl hi
  | enc =>
    simp only [exec, execEnc] at h
    split at h <;> cases h
    · exact reportsOrBegins_raiseError _ 0 rfl
    · exact reportsOrBegins_completeOk rfl
  | dec =>
    simp only [exec, execDec] at h
    split at h <;> cases h
    · exact reportsOrBegins_raiseError _ 0 rfl
    · exact reportsOrBegins_completeOk rfl
  | vin =>
    simp only [exec, execVin] at h
    split at h <;> cases h
    · exact reportsOrBegins_completeOk rfl
    · exact reportsOrBegins_raiseError _ _ rfl
  | csum buf =>
    cases h
    exact reportsOrBegins_completeOk rfl
  | build =>
    cases h
    obtain ⟨e, -, h⟩ | ⟨b, -, -, h⟩ | ⟨b, -, -, h⟩ :=
      buildThen_cases (.ok (payloadOperand (startOp 0x03 s))) completeOk (startOp 0x03 s) <;> rw [h]
    · exact reportsOrBegins_raiseError e 0 rfl
    · exact reportsOrBegins_raiseError _ 0 rfl
    · exact reportsOrBegins_completeOk rfl
  | vout =>
    cases h
    obtain ⟨-, h⟩ | ⟨-, h⟩ := validateThen_cases completeOk (startOp 0x05 s) <;> rw [h]
    · exact reportsOrBegins_completeOk rfl
    · exact reportsOrBegins_raiseError _ _ rfl
  | send | sendi | geti =>
    cases h
    exact reportsOrBegins_issue _ rfl

/-- So does every word but CLR's, the illegal ones included (R162, R163). -/
theorem opWrite_reportsOrBegins (hw : w ≠ 0x00) (h : opWrite w s = .next t) : ReportsOrBegins s t := by
  obtain ⟨i, hi, e⟩ | ⟨_, -, e⟩ := opWrite_cases w s <;> rw [e] at h
  · have notClr : i ≠ .clr := by
      rintro rfl
      exact hw (decodeWord_eq_ok_iff.mp hi)
    exact exec_reportsOrBegins notClr h
  · cases h
    exact reportsOrBegins_raiseError _ w rfl

/-- A write that clears OVR is an accepted write of CLR's word to OP (R162). -/
theorem clr_of_hostWrite_clears_ovr {a : Byte} (h : hostWrite a w s = .next t) (hs : s.ovr = true) (ht : t.ovr = false) :
    s.busy = false ∧ a = 0x00 ∧ w = 0x00 := by
  obtain ⟨-, e⟩ | ⟨idle, op, e⟩ | ⟨-, -, e⟩ := hostWrite_cases a w s <;> rw [e] at h
  · cases h
    cases ht
  · refine ⟨idle, (regOf_eq_op_iff a).mp op, ?_⟩
    by_contra hw
    have kept : t.ovr = s.ovr := (opWrite_reportsOrBegins hw h).ovr_eq
    simp [hs, ht] at kept
  · cases h
    have kept : (writeReg (regOf a) w s).ovr = s.ovr := by rw [writeReg_eq]
    simp [hs, ht] at kept

/-! ### What the stream does to DONE and OVR (R134 to R139) -/

/-- The stream's answers never touch OVR. -/
theorem streamStep_ovr {g : StreamSignals} (h : streamStep g s = .next t) : t.ovr = s.ovr := by
  obtain rfl | ⟨-, -, rfl⟩ | ⟨-, rfl⟩ | ⟨-, -, -, -, rfl⟩ | ⟨-, -, -, -, rfl⟩ | ⟨-, rfl⟩ | ⟨-, rfl⟩ :=
    streamStep_cases g s t h <;> rfl

/-- A step of the stream goes on with the exchange or sets DONE. -/
theorem streamStep_busy_or_done {g : StreamSignals} (h : streamStep g s = .next t) : t.busy = s.busy ∨ t.done = true := by
  obtain rfl | ⟨-, -, rfl⟩ | ⟨-, rfl⟩ | ⟨-, -, -, -, rfl⟩ | ⟨-, -, -, -, rfl⟩ | ⟨-, rfl⟩ | ⟨-, rfl⟩ :=
    streamStep_cases g s t h
  case inl | inr.inl | inr.inr.inr.inl => exact .inl rfl
  case inr.inr.inl | inr.inr.inr.inr.inl | inr.inr.inr.inr.inr.inl | inr.inr.inr.inr.inr.inr => exact .inr rfl

/-! ### What a step does to DONE and OVR (R162) -/

theorem inputStep_of_not_rst {i : Input} (hrst : i.rst = false) : inputStep i s = actStep i.act s :=
  if_neg (by simp [hrst])

/-- Without `rst` only the stream ends an exchange, and it sets DONE with it. -/
theorem done_of_actStep_ends_exchange {act : Act} (hs : s.busy = true) (h : actStep act s = .next t)
    (ht : t.busy = false) : t.done = true := by
  cases act with
  | quiet | hostRead a =>
    cases h
    cases hs.symm.trans ht
  | hostWrite a v =>
    cases (hostWrite_of_busy hs).symm.trans h
    cases hs.symm.trans ht
  | stream g =>
    obtain busy_eq | done := streamStep_busy_or_done h
    · cases ht.symm.trans (busy_eq.trans hs)
    · exact done

/-- Without `rst` only a write of CLR's word to OP, accepted, clears OVR. -/
theorem clr_of_actStep_clears_ovr {act : Act} (hs : s.ovr = true) (h : actStep act s = .next t) (ht : t.ovr = false) :
    s.busy = false ∧ act = .hostWrite 0x00 0x00 := by
  cases act with
  | quiet | hostRead a =>
    cases h
    cases hs.symm.trans ht
  | hostWrite a v =>
    obtain ⟨idle, rfl, rfl⟩ := clr_of_hostWrite_clears_ovr h hs ht
    exact ⟨idle, rfl⟩
  | stream g => cases ht.symm.trans ((streamStep_ovr h).trans hs)

end

/-- Settles O6: `ReportsOrBegins` keeps every other word from leaving DONE unset or clearing OVR, and neither the stream nor
a read clears OVR or ends an exchange without DONE. -/
theorem clrClearsStatus : Obligations.ClrClearsStatus := by
  refine ⟨rfl, fun s => ⟨rfl, hostWrite_of_busy, fun w t idle h unset => ?unset, fun i t hrst hs h ht => ?ends,
    fun i t hs h ht => ?overrun⟩⟩
  case unset =>
    rw [hostWrite_op_of_idle idle] at h
    refine or_iff_not_imp_left.mpr fun hw => ?_
    obtain ⟨-, done | busy⟩ := opWrite_reportsOrBegins hw h
    · cases done.symm.trans unset
    · exact busy
  case ends =>
    rw [inputStep_of_not_rst hrst] at h
    exact done_of_actStep_ends_exchange hs h ht
  case overrun =>
    cases hrst : i.rst with
    | true => exact .inl rfl
    | false =>
      rw [inputStep_of_not_rst hrst] at h
      exact .inr (clr_of_actStep_clears_ovr hs h ht)

end Sys2Proof.Machine

/-! PROOFS. Decoding and encoding a sequence of bytes (spec 30_encoding.md R87, R88, R92). -/

namespace Sys2Proof

/-- Settles O4: the decoder looks at the first byte alone, and every operation has exactly one word. -/
theorem decodeAndEncodeAgree : Obligations.DecodeAndEncodeAgree := by
  intro bytes rest i
  cases bytes with
  | nil => simp [encode]
  | cons w tail =>
    have decoded : decode (w :: tail) = .ok (i, rest) ↔ decodeWord w = .ok i ∧ tail = rest := by
      rw [decode_cons]
      cases decodeWord w <;> simp [Except.map]
    simp [decoded, decodeWord_eq_ok_iff, encode]

end Sys2Proof

/-! PROOFS. What the step of an operation's OP write can leave, said once for all operations, and what follows for the
registers it writes and the errors it reports (spec 30_encoding.md R95; 60_exceptions.md R178). -/

namespace Sys2Proof.Machine

/-! ### The outcomes of an operation (R164, R165, R181) -/

/-- The three operations that can begin an exchange (R131). -/
abbrev Exchanges (i : Instr) : Prop := i = .send ∨ i = .sendi ∨ i = .geti

/-- The states the operation `i` can leave when it is started in `s`. -/
inductive OperationOutcome (s : State) (i : Instr) : State → Prop where
  /-- CLR (R162). -/
  | cleared : i = .clr → OperationOutcome s i { afterOk 0x00 s with done := false, ovr := false }
  /-- Completed without error; only the result of the operation itself differs. -/
  | completed (ib : Vector Byte 4) (val : Value) (txf : Vector Byte 26) (csum : Byte) :
      (i ≠ .enc → ib = s.ib) → (i ≠ .dec → val = s.val) → (i ≠ .build → txf = s.txf) →
      ((∀ buf, i ≠ .csum buf) → csum = s.csum) →
      OperationOutcome s i { afterOk (encodeWord i) s with ib := ib, val := val, txf := txf, csum := csum }
  /-- An operand is unfit (R100, R101, R111). -/
  | unfit (e : ErrCode) : e = .payloadTooLong ∨ e = .unsupportedWidth ∨ e = .valueOutOfRange → CanReport i e →
      OperationOutcome s i (afterError (encodeWord i) e 0x00 s)
  /-- VIN on a response that is not 26 bytes long (R117). -/
  | wrongLength : i = .vin → s.rxcnt ≠ 26 → OperationOutcome s i (afterError (encodeWord i) .responseLength s.rxcnt s)
  /-- A check of the outgoing frame `f` fails (R114). -/
  | rejected (f : Vector Byte 26) : validationMask s.cmdAllowed f ≠ 0 → CanReport i .invalidFrame →
      (Exchanges i ∨ f = s.txf) →
      OperationOutcome s i
        { afterError (encodeWord i) .invalidFrame (reason (validationMask s.cmdAllowed f)) s with
          txf := f, vmask := validationMask s.cmdAllowed f }
  /-- An exchange begins with the valid frame `f` (R133). -/
  | begun (f : Vector Byte 26) : Exchanges i → validationMask s.cmdAllowed f = 0 →
      (i = .geti → widthSupported s.width.toNat = true) → OperationOutcome s i (afterIssue (encodeWord i) f s)

section
variable {i : Instr} {s t : State}

/-- The issue step of an operation whose operand is `p`. -/
theorem operationOutcome_issue {p : Except ErrCode (List Byte)} (hi : Exchanges i)
    (unfit : ∀ e, p = .error e → (e = .unsupportedWidth ∨ e = .valueOutOfRange) ∧ CanReport i e)
    (long : ∀ b, p = .ok b → 22 < b.length → CanReport i .payloadTooLong)
    (width : ∀ b, p = .ok b → i = .geti → widthSupported s.width.toNat = true) :
    OperationOutcome s i (issue p (startOp (encodeWord i) s)) := by
  have rejects : CanReport i .invalidFrame := by obtain rfl | rfl | rfl := hi <;> simp [CanReport]
  obtain ⟨e, hp, h⟩ | ⟨b, hp, hb, h⟩ | ⟨b, f, -, -, -, hm, h⟩ | ⟨b, f, hp, -, -, hm, h⟩ :=
    issue_cases p (startOp (encodeWord i) s) <;> rw [h]
  · obtain ⟨he, reports⟩ := unfit e hp
    exact .unfit e (.inr he) reports
  · exact .unfit .payloadTooLong (.inl rfl) (long b hp hb)
  · exact .rejected f hm rejects (.inl hi)
  · exact .begun f hi hm (width b hp)

/-- The operand of ENC and SENDI can be unfit by its width or its range only (R100). -/
theorem encodeInt_unfit {v w : Nat} {e : ErrCode} (h : encodeInt v w = .error e) :
    e = .unsupportedWidth ∨ e = .valueOutOfRange := by
  obtain ⟨-, h'⟩ | ⟨-, -, h'⟩ | ⟨-, -, h'⟩ := encodeInt_cases v w <;> cases h'.symm.trans h
  · exact .inl rfl
  · exact .inr rfl

theorem encodeInt_of_fits {v w : Nat} (hw : widthSupported w = true) (hv : v < 2 ^ (8 * w)) :
    encodeInt v w = .ok (leEncode v w) := by
  simp [encodeInt, hw, hv]

theorem encodeInt_length_le {v w : Nat} {b : List Byte} (h : encodeInt v w = .ok b) : b.length ≤ 4 := by
  obtain ⟨-, h'⟩ | ⟨-, -, h'⟩ | ⟨hw, -, h'⟩ := encodeInt_cases v w <;> cases h'.symm.trans h
  have := (widthSupported_iff w).mp hw
  simp only [leEncode_length]
  omega

/-- What an operation that answers can have done. -/
theorem exec_outcome (h : exec i s = .next t) : OperationOutcome s i t := by
  cases i with
  | clr => cases h; exact .cleared rfl
  | enc =>
    cases operand : encodeInt s.val.toNat s.width.toNat with
    | error e =>
      cases (exec_enc_of_error operand).symm.trans h
      exact .unfit e (.inr (encodeInt_unfit operand)) (.inr (encodeInt_unfit operand))
    | ok b =>
      cases (exec_enc_of_ok operand).symm.trans h
      exact .completed _ s.val s.txf s.csum (by simp) (by simp) (by simp) (by simp)
  | dec =>
    cases hw : widthSupported s.width.toNat with
    | false =>
      cases (exec_of_unsupportedWidth (by simp) hw).symm.trans h
      exact .unfit .unsupportedWidth (.inr (.inl rfl)) (.inr rfl)
    | true =>
      cases (exec_dec_of_supported hw).symm.trans h
      exact .completed s.ib _ s.txf s.csum (by simp) (by simp) (by simp) (by simp)
  | build =>
    by_cases hlen : 22 < s.plen.toNat
    · cases (exec_build_of_payloadTooLong hlen).symm.trans h
      exact .unfit .payloadTooLong (.inl rfl) (.inr rfl)
    · cases (exec_build_of_fits (by omega)).symm.trans h
      exact .completed s.ib s.val _ s.csum (by simp) (by simp) (by simp) (by simp)
  | csum buf =>
    cases h
    cases buf <;> exact .completed s.ib s.val s.txf _ (by simp) (by simp) (by simp) (by simp)
  | vout =>
    by_cases hm : validationMask s.cmdAllowed s.txf = 0
    · cases (exec_vout_of_valid hm).symm.trans h
      exact .completed s.ib s.val s.txf s.csum (by simp) (by simp) (by simp) (by simp)
    · cases (exec_vout_of_invalid rfl hm).symm.trans h
      exact .rejected s.txf hm (.inr rfl) (.inr rfl)
  | vin =>
    by_cases h26 : s.rxcnt = 26
    · cases (exec_vin_of_rxcnt_eq h26).symm.trans h
      exact .completed s.ib s.val s.txf s.csum (by simp) (by simp) (by simp) (by simp)
    · cases (exec_vin_of_rxcnt_ne h26).symm.trans h
      exact .wrongLength rfl h26
  | send =>
    cases h
    exact operationOutcome_issue (.inl rfl) (by simp) (by simp [CanReport]) (by simp)
  | sendi =>
    cases h
    refine operationOutcome_issue (.inr (.inl rfl)) (fun e he => ?unfit) (fun b hb hlen => ?long) (by simp)
    case unfit =>
      have reason := encodeInt_unfit he
      exact ⟨reason, .inr (or_assoc.mp (.inl reason))⟩
    case long =>
      have := encodeInt_length_le hb
      omega
  | geti =>
    cases hw : widthSupported s.width.toNat with
    | false =>
      cases (exec_of_unsupportedWidth (by simp) hw).symm.trans h
      exact .unfit .unsupportedWidth (.inr (.inl rfl)) (.inr (.inl rfl))
    | true =>
      have operand : emptyOperand (startOp 0x09 s) = .ok [] := if_pos hw
      simp only [exec, execGeti, operand] at h
      cases h
      exact operationOutcome_issue (.inr (.inr rfl)) (by simp) (by simp) fun _ _ _ => hw

/-! ### What an operation leaves unchanged (R95) -/

/-- From `s` to `t` nothing changed but what the operation `i` may change. -/
structure OperationFrame (i : Instr) (s t : State) : Prop where
  addr : t.addr = s.addr
  cmd : t.cmd = s.cmd
  plen : t.plen = s.plen
  width : t.width = s.width
  pl : t.pl = s.pl
  rxf : t.rxf = s.rxf
  cmdAllowed : t.cmdAllowed = s.cmdAllowed
  inputs : t.inputs = s.inputs
  drawn : t.drawn = s.drawn
  wire : t.wire = s.wire
  readLog : t.readLog = s.readLog
  ovr : i ≠ .clr → t.ovr = s.ovr
  ib : i ≠ .enc → t.ib = s.ib
  val : i ≠ .dec → t.val = s.val
  csum : (∀ buf, i ≠ .csum buf) → t.csum = s.csum
  txf : i ≠ .build → ¬ Exchanges i → t.txf = s.txf
  counters : ¬ Exchanges i → t.txcnt = s.txcnt ∧ t.rxcnt = s.rxcnt
  sequencer : ¬ Exchanges i → t.busy = s.busy ∧ t.phase = s.phase

theorem operationFrame_of_outcome (h : OperationOutcome s i t) : OperationFrame i s t := by
  cases h with
  | cleared hi => constructor <;> simp [hi, afterOk]
  | completed ib val txf csum hib hval htxf hcsum => constructor <;> simp_all [afterOk]
  | unfit | wrongLength => constructor <;> simp [afterError]
  | rejected f hm hi hf =>
    constructor
    case txf => exact fun _ => hf.resolve_left
    all_goals simp [afterError]
  | begun f hi hm hw => constructor <;> simp [afterIssue, hi]

/-- The registers the step of an operation's OP write may write: those every operation writes, and its results. -/
def writesReg (i : Instr) : Reg → Bool
  | .op | .status | .errCode | .errInfo | .vmask => true
  | .ib _ => i == .enc
  | .val _ => i == .dec
  | .csum => i == .csum .txf || i == .csum .rxf
  | .txf _ => i == .build || decide (Exchanges i)
  | .txcnt | .rxcnt => decide (Exchanges i)
  | .addr | .cmd | .plen | .width | .pl _ | .rxf _ | .reserved => false

/-- They stand at the addresses the statements list (R61). -/
theorem writesReg_regOf_iff (i : Instr) (a : Byte) :
    writesReg i (regOf a) = true ↔ StatusAddress a ∨ ResultAddress i a := by
  cases i with
  | csum buf => cases buf <;> (simp only [ResultAddress]; revert a; decide)
  | _ => simp only [ResultAddress]; revert a; decide

/-- Every other register reads as before. -/
theorem readReg_of_operationFrame {r : Reg} (h : OperationFrame i s t) (hr : writesReg i r = false) :
    readReg r t = readReg r s := by
  cases r with
  | op | status | errCode | errInfo | vmask => cases hr
  | addr => exact h.addr
  | cmd => exact h.cmd
  | plen => exact h.plen
  | width => exact h.width
  | reserved => rfl
  | pl k => simp only [readReg, h.pl]
  | rxf k => simp only [readReg, h.rxf]
  | ib k =>
    have : i ≠ .enc := by simpa [writesReg] using hr
    simp only [readReg, h.ib this]
  | val k =>
    have : i ≠ .dec := by simpa [writesReg] using hr
    simp only [readReg, h.val this]
  | csum =>
    have : ∀ buf, i ≠ .csum buf := by
      rintro (_ | _) rfl <;> cases hr
    exact h.csum this
  | txf k =>
    obtain ⟨hb, he⟩ : i ≠ .build ∧ ¬ Exchanges i := by simpa [writesReg] using hr
    simp only [readReg, h.txf hb he]
  | txcnt => exact (h.counters (of_decide_eq_false hr)).1
  | rxcnt => exact (h.counters (of_decide_eq_false hr)).2

/-- Settles O16: what an operation may change is its frame, read register by register. -/
theorem operationsLeaveOtherRegisters : Obligations.OperationsLeaveOtherRegisters := by
  intro i s t h
  have frame : OperationFrame i s t := operationFrame_of_outcome (exec_outcome h)
  refine ⟨fun a status result => ?reads, ?operands, fun h1 h2 h3 => frame.sequencer (by simp [h1, h2, h3]), frame.ovr,
    ?model⟩
  case reads =>
    have untouched : writesReg i (regOf a) = false :=
      Bool.eq_false_iff.mpr ((writesReg_regOf_iff i a).not.mpr (not_or.mpr ⟨status, result⟩))
    exact readReg_of_operationFrame frame untouched
  case operands => exact ⟨frame.addr, frame.cmd, frame.plen, frame.width, frame.pl, frame.rxf⟩
  case model => exact ⟨frame.cmdAllowed, frame.inputs, frame.drawn, frame.wire, frame.readLog⟩

end

/-! ### What an operation reports (R42, R178) -/

/-- The error registers agree with one another and with DONE (R42). -/
structure ReportAgrees (s : State) : Prop where
  done_of_err : s.err = true → s.done = true
  code_iff_err : s.errCode ≠ .noError ↔ s.err = true
  mask_iff_invalid : s.vmask ≠ 0 ↔ s.errCode = .invalidFrame
  info_of_mask : s.vmask ≠ 0 → s.errInfo = reason s.vmask

section
variable {i : Instr} {s t : State}

theorem reportAgrees_of_noError (err : s.err = false) (code : s.errCode = .noError) (mask : s.vmask = 0) :
    ReportAgrees s := by
  constructor <;> simp [err, code, mask]

/-- An error other than InvalidFrame, completed. -/
theorem reportAgrees_of_error (err : s.err = true) (done : s.done = true) (mask : s.vmask = 0)
    (code : s.errCode ≠ .noError) (valid : s.errCode ≠ .invalidFrame) : ReportAgrees s := by
  constructor <;> simp [err, done, mask, code, valid]

theorem reportAgrees_of_invalidFrame (err : s.err = true) (done : s.done = true) (code : s.errCode = .invalidFrame)
    (mask : s.vmask ≠ 0) (info : s.errInfo = reason s.vmask) : ReportAgrees s :=
  ⟨fun _ => done, iff_of_true (by simp [code]) err, iff_of_true mask code, fun _ => info⟩

theorem reportAgrees_of_outcome (h : OperationOutcome s i t) : ReportAgrees t := by
  cases h with
  | cleared | completed | begun => exact reportAgrees_of_noError rfl rfl rfl
  | unfit e he hi => obtain rfl | rfl | rfl := he <;> exact reportAgrees_of_error rfl rfl rfl nofun nofun
  | wrongLength hi hn => exact reportAgrees_of_error rfl rfl rfl nofun nofun
  | rejected f hm hi hf => exact reportAgrees_of_invalidFrame rfl rfl rfl hm rfl

theorem xop_of_outcome (h : OperationOutcome s i t) : t.xop = encodeWord i := by
  cases h with
  | cleared hi => rw [hi]; rfl
  | _ => rfl

/-- Success, an issued exchange included, is in every operation's row of the table of errors. -/
theorem canReport_noError (i : Instr) : CanReport i .noError := by
  cases i <;> simp [CanReport]

theorem canReport_of_outcome (h : OperationOutcome s i t) : CanReport i t.errCode := by
  cases h with
  | cleared | completed | begun => exact canReport_noError i
  | unfit e he hi => exact hi
  | wrongLength hi hn => rw [hi]; exact .inr rfl
  | rejected f hm hi hf => exact hi

/-- Settles O17: of every outcome the word, the error and the agreement of the error registers. -/
theorem operationsReportOwnErrors : Obligations.OperationsReportOwnErrors := by
  intro i s t h
  have outcome : OperationOutcome s i t := exec_outcome h
  obtain ⟨done_of_err, code_iff_err, mask_iff_invalid, info_of_mask⟩ := reportAgrees_of_outcome outcome
  exact ⟨xop_of_outcome outcome, canReport_of_outcome outcome, code_iff_err.symm, done_of_err, mask_iff_invalid,
    info_of_mask⟩

end

end Sys2Proof.Machine

/-! PROOFS. The invariants of the status registers, the counters and a running exchange: they hold at reset, and every step
keeps them (spec 10_state.md R42; 42_command_transport.md R132 to R139). -/

namespace Sys2Proof.Machine

/-! ### What the invariants rest on -/

section
variable {s t : State}

theorem Inv.report (h : Inv s) : ReportAgrees s :=
  ⟨h.status.done_of_err, h.status.code_iff_err, h.status.mask_iff_invalid, h.status.info_of_mask⟩

theorem Inv.busy_of_phase (h : Inv s) (hp : s.phase ≠ .idle) : s.busy = true :=
  h.status.busy_iff_phase.mpr hp

theorem Inv.phase_of_idle (h : Inv s) (hb : s.busy = false) : s.phase = .idle := by
  by_contra hp
  cases hb.symm.trans (h.status.busy_iff_phase.mpr hp)

/-- While an exchange is in progress no error has been reported. -/
theorem Inv.noError_of_busy (h : Inv s) (hb : s.busy = true) :
    s.done = false ∧ s.err = false ∧ s.errCode = .noError ∧ s.vmask = 0 := by
  obtain ⟨done_of_err, code_iff_err, mask_iff_invalid, -⟩ := h.report
  have done : s.done = false := Bool.eq_false_iff.mpr fun hd => h.status.not_busy_and_done ⟨hb, hd⟩
  have err : s.err = false := Bool.eq_false_iff.mpr fun he => by cases done.symm.trans (done_of_err he)
  have code : s.errCode = .noError := by
    by_contra hc
    cases err.symm.trans (code_iff_err.mp hc)
  have mask : s.vmask = 0 := by
    by_contra hm
    cases code.symm.trans (mask_iff_invalid.mp hm)
  exact ⟨done, err, code, mask⟩

/-- The invariants say nothing of ADDR, CMD, PLEN, VAL, IB, PL, RXF, CSUM, OVR and the model's own fields. -/
theorem Inv.of_eq (h : Inv s) (ht : t = { s with
    ovr := t.ovr, csum := t.csum, addr := t.addr, cmd := t.cmd, plen := t.plen, val := t.val, ib := t.ib, pl := t.pl
    rxf := t.rxf, inputs := t.inputs, drawn := t.drawn, wire := t.wire, readLog := t.readLog }) : Inv t := by
  rw [ht]
  exact ⟨{ h.status with }, { h.exchange with }⟩

/-- In an idle block only the error registers and the bound of TXCNT count. -/
theorem inv_of_idle (busy : s.busy = false) (phase : s.phase = .idle) (report : ReportAgrees s)
    (txcnt : s.txcnt.toNat ≤ 26) : Inv s :=
  ⟨{ report with
      busy_iff_phase := by simp [busy, phase]
      not_busy_and_done := by simp [busy]
      txcnt_le := txcnt
      tx_offset := by simp [phase]
      rx_offset := by simp [phase] },
    by constructor <;> simp [busy, phase]⟩

/-! ### Reset (R47, R200) -/

/-- A reset step is the reset of the block, with the returned byte logged if the host reads. -/
theorem resetStep_eq (act : Act) (s : State) :
    resetStep act s = { resetBlock s with readLog := (resetStep act s).readLog } := by
  cases act <;> rfl

theorem inv_resetStep (act : Act) (s : State) : Inv (resetStep act s) := by
  rw [resetStep_eq]
  exact inv_of_idle rfl rfl (reportAgrees_of_noError rfl rfl rfl) (by simp)

/-! ### Operations and writes while idle -/

section
variable {i : Instr}

/-- An exchange begins: the frame in TXF has passed every check, and GETI's width is supported (R132, R133, R142). -/
theorem inv_afterIssue {f : Vector Byte 26} (hi : Exchanges i) (hm : validationMask s.cmdAllowed f = 0)
    (hw : i = .geti → widthSupported s.width.toNat = true) : Inv (afterIssue (encodeWord i) f s) := by
  constructor
  · constructor <;> simp [afterIssue]
  · constructor
    case started_by =>
      intro _
      obtain rfl | rfl | rfl := hi
      exacts [.inl rfl, .inr (.inl rfl), .inr (.inr rfl)]
    case width_checked =>
      intro _ hx
      obtain rfl | rfl | rfl := hi
      · cases hx
      · cases hx
      · exact hw rfl
    case unread_in_tx => exact fun _ => rfl
    case frame_valid => exact fun _ => hm

theorem Inv.of_outcome (h : Inv s) (hb : s.busy = false) (ht : OperationOutcome s i t) : Inv t := by
  have hp : s.phase = .idle := h.phase_of_idle hb
  have report : ReportAgrees t := reportAgrees_of_outcome ht
  cases ht with
  | cleared | completed | unfit | wrongLength | rejected => exact inv_of_idle hb hp report h.status.txcnt_le
  | begun f hi hm hw => exact inv_afterIssue hi hm hw

end

theorem Inv.illegal (h : Inv s) (hb : s.busy = false) (w : Byte) :
    Inv (raiseError .illegalOperation w (startOp w s)) :=
  inv_of_idle hb (h.phase_of_idle hb) (reportAgrees_of_error rfl rfl rfl nofun nofun) h.status.txcnt_le

/-- A register write while idle touches neither the error registers nor TXCNT (R39). -/
theorem Inv.of_writeReg (h : Inv s) (hb : s.busy = false) (r : Reg) (v : Byte) : Inv (writeReg r v s) := by
  obtain ⟨-, busy, done, err, -, phase, code, info, mask, txcnt, -⟩ := writeReg_frame r v s
  have report : ReportAgrees (writeReg r v s) := by
    obtain ⟨done_of_err, code_iff_err, mask_iff_invalid, info_of_mask⟩ := h.report
    constructor <;> simpa only [err, done, code, mask, info]
  exact inv_of_idle (busy.trans hb) (phase.trans (h.phase_of_idle hb)) report (txcnt ▸ h.status.txcnt_le)

/-! ### The stream (R134 to R139) -/

/-- An exchange that ends with an error of the stream. -/
theorem Inv.streamError (h : Inv s) (hb : s.busy = true) (e : ErrCode) (info : Byte)
    (he : e = .ioError ∨ e = .responseLength) : Inv (raiseError e info (endExchange s)) := by
  obtain ⟨-, -, -, mask⟩ := h.noError_of_busy hb
  have report : ReportAgrees (raiseError e info (endExchange s)) := by
    obtain rfl | rfl := he <;> exact reportAgrees_of_error rfl rfl mask nofun nofun
  exact inv_of_idle rfl rfl report h.status.txcnt_le

/-- A byte sent: the 26th opens the RX phase with TXCNT = 26 and nothing received yet. -/
theorem Inv.sent (h : Inv s) (hp : s.phase = .tx) (hlt : s.txcnt.toNat < 26) (wire : List Byte) :
    Inv { s with wire := wire, txcnt := s.txcnt + 1, phase := if s.txcnt + 1 = 26 then .rx else .tx } := by
  have count : (s.txcnt + 1).toNat = s.txcnt.toNat + 1 := count_succ_toNat _ hlt
  have busy : s.busy = true := h.busy_of_phase (by simp [hp])
  by_cases last : s.txcnt + 1 = 26
  · simp only [last, if_true]
    exact ⟨{ h.status with
        busy_iff_phase := by simp [busy]
        txcnt_le := by simp
        tx_offset := nofun
        rx_offset := fun _ => ⟨rfl, by simp [h.exchange.unread_in_tx hp]⟩ },
      { h.exchange with unread_in_tx := nofun }⟩
  · simp only [last, if_false]
    have notLast : s.txcnt.toNat ≠ 25 := fun h25 => last ((count_succ_eq_26 _).mpr (BitVec.eq_of_toNat_eq h25))
    exact ⟨{ h.status with
        busy_iff_phase := by simp [busy]
        txcnt_le := by simp only [count]; omega
        tx_offset := fun _ => by simp only [count]; omega
        rx_offset := nofun },
      { h.exchange with unread_in_tx := fun _ => h.exchange.unread_in_tx hp }⟩

/-- A byte received that is not the last. -/
theorem Inv.received (h : Inv s) (hp : s.phase = .rx) (hlt : s.rxcnt.toNat < 26) (more : s.rxcnt + 1 ≠ 26)
    (rxf : Vector Byte 26) : Inv { s with rxf := rxf, rxcnt := s.rxcnt + 1 } := by
  have count : (s.rxcnt + 1).toNat = s.rxcnt.toNat + 1 := count_succ_toNat _ hlt
  have notLast : s.rxcnt.toNat ≠ 25 := fun h25 => more ((count_succ_eq_26 _).mpr (BitVec.eq_of_toNat_eq h25))
  obtain ⟨sent, -⟩ := h.status.rx_offset hp
  exact ⟨{ h.status with rx_offset := fun _ => ⟨sent, by simp only [count]; omega⟩ },
    { h.exchange with unread_in_tx := fun htx => by cases hp.symm.trans htx }⟩

/-- The response is complete. -/
theorem Inv.completed (h : Inv s) (hb : s.busy = true) (rxf : Vector Byte 26) (val : Value) :
    Inv (completeOk (endExchange { s with rxf := rxf, rxcnt := 26, val := val })) := by
  obtain ⟨-, err, code, mask⟩ := h.noError_of_busy hb
  exact inv_of_idle rfl rfl (reportAgrees_of_noError err code mask) h.status.txcnt_le

theorem Inv.of_streamStep {g : StreamSignals} (h : Inv s) (ht : streamStep g s = .next t) : Inv t := by
  obtain rfl | ⟨hp, hlt, rfl⟩ | ⟨hp, rfl⟩ | ⟨hp, b, hlt, more, rfl⟩ | ⟨hp, r, v, -, rfl⟩ | ⟨hp, rfl⟩ | ⟨hp, rfl⟩ :=
    streamStep_cases g s t ht
  · exact h
  · exact h.sent hp hlt _
  · exact h.streamError (h.busy_of_phase (by simp [hp])) _ _ (.inl rfl)
  · exact h.received hp hlt more _
  · exact h.completed (h.busy_of_phase (by simp [hp])) r v
  · exact h.streamError (h.busy_of_phase (by simp [hp])) _ _ (.inr rfl)
  · exact h.streamError (h.busy_of_phase (by simp [hp])) _ _ (.inl rfl)

/-! ### Every step -/

theorem Inv.of_inputStep {i : Input} (h : Inv s) (ht : inputStep i s = .next t) : Inv t := by
  obtain ⟨-, e⟩ | ⟨-, ⟨-, e⟩ | ⟨a, -, e⟩ | ⟨-, e⟩ | ⟨hb, j, e⟩ | ⟨hb, w, e⟩ | ⟨hb, r, v, e⟩ | ⟨g, -, e⟩⟩ :=
    inputStep_cases i s <;> rw [e] at ht
  · cases ht
    exact inv_resetStep i.act s
  · cases ht
    exact h
  · cases ht
    exact h.of_eq rfl
  · cases ht
    exact h.of_eq rfl
  · exact h.of_outcome hb (exec_outcome ht)
  · cases ht
    exact h.illegal hb w
  · cases ht
    exact h.of_writeReg hb r v
  · exact h.of_streamStep ht

/-- Settles O41: the input that a step takes away is nothing the invariants speak of, and each transition keeps them. -/
theorem stepKeepsInvariants : Obligations.StepKeepsInvariants := by
  intro s t h ht
  obtain ⟨i, rest, n, e⟩ := step_cases s
  have listed : Inv { s with inputs := rest, drawn := n } := h.of_eq rfl
  exact listed.of_inputStep (e.symm.trans ht)

/-! ### No step stops the machine (R170) -/

theorem onTxAccept_of_lt (hlt : s.txcnt.toNat < 26) :
    onTxAccept s = .next { s with
      wire := s.wire ++ [s.txf[s.txcnt.toNat]], txcnt := s.txcnt + 1
      phase := if s.txcnt + 1 = 26 then .rx else s.phase } :=
  dif_pos hlt

/-- The completion answers, since GETI's width was checked when the exchange began (R138, R142). -/
theorem exists_completeExchange_eq_next (hw : s.xop = 0x09 → widthSupported s.width.toNat = true) :
    ∃ t, completeExchange s = .next t := by
  by_cases hx : s.xop = 0x09
  · exact ⟨_, completeExchange_of_geti hx (hw hx)⟩
  · exact ⟨_, completeExchange_of_xop_ne hx⟩

theorem Inv.exists_onRxByte_eq_next (h : Inv s) (hp : s.phase = .rx) (b : Byte) : ∃ t, onRxByte b s = .next t := by
  obtain ⟨-, hle⟩ := h.status.rx_offset hp
  by_cases h25 : s.rxcnt = 25
  · rw [onRxByte_of_last b h25]
    exact exists_completeExchange_eq_next (h.exchange.width_checked (h.busy_of_phase (by simp [hp])))
  · exact ⟨_, onRxByte_of_not_last b (by omega) h25⟩

theorem streamStep_of_idle (g : StreamSignals) (hp : s.phase = .idle) : streamStep g s = .next s := by
  simp only [streamStep, hp]

theorem Inv.exists_streamStep_eq_next (h : Inv s) (g : StreamSignals) : ∃ t, streamStep g s = .next t := by
  cases hp : s.phase with
  | idle => exact ⟨s, streamStep_of_idle g hp⟩
  | tx =>
    rw [streamStep_of_tx hp]
    rcases g.txAnswer with _ | _ | _
    · exact ⟨s, rfl⟩
    · exact ⟨_, onTxAccept_of_lt (Nat.lt_succ_of_le (h.status.tx_offset hp))⟩
    · exact ⟨_, rfl⟩
  | rx =>
    rw [streamStep_of_rx hp]
    rcases g.rxAnswer with _ | b | _ | _
    · exact ⟨s, rfl⟩
    · exact h.exists_onRxByte_eq_next hp b
    · exact ⟨_, rfl⟩
    · exact ⟨_, rfl⟩

theorem Inv.exists_inputStep_eq_next (h : Inv s) (i : Input) : ∃ t, inputStep i s = .next t := by
  obtain ⟨-, e⟩ | ⟨-, ⟨-, e⟩ | ⟨a, -, e⟩ | ⟨-, e⟩ | ⟨-, j, e⟩ | ⟨-, w, e⟩ | ⟨-, r, v, e⟩ | ⟨g, -, e⟩⟩ :=
    inputStep_cases i s
  case inr.inr.inr.inr.inl => exact e ▸ exec_next j s
  case inr.inr.inr.inr.inr.inr.inr => exact e ▸ h.exists_streamStep_eq_next g
  all_goals exact ⟨_, e⟩

/-- Settles O42: the three faults are ruled out by the bounds of TXCNT and RXCNT and by GETI's checked width. -/
theorem machineNeverStops : Obligations.MachineNeverStops := by
  intro s h
  obtain ⟨i, rest, n, e⟩ := step_cases s
  have listed : Inv { s with inputs := rest, drawn := n } := h.of_eq rfl
  obtain ⟨t, ht⟩ := listed.exists_inputStep_eq_next i
  exact ⟨t, e.trans ht⟩

/-- Settles O40: at reset the block is idle without an error, and ERRINFO is 0. -/
theorem invariantsHoldAtReset : Obligations.InvariantsHoldAtReset :=
  ⟨inv_of_idle rfl rfl (reportAgrees_of_noError rfl rfl rfl) (by decide), nofun, rfl⟩

end

end Sys2Proof.Machine

/-! PROOFS. What every step keeps beside the invariants: the command set, the detail of an error, the wire, and the operands
of a running exchange (spec 00_scope.md R6; 10_state.md R37, R42; 42_command_transport.md R132, R134). -/

namespace Sys2Proof.Machine

/-! ### The command set (R6) -/

section
variable {i : Input} {s t : State}

theorem inputStep_cmdAllowed (h : inputStep i s = .next t) : t.cmdAllowed = s.cmdAllowed := by
  obtain ⟨-, e⟩ | ⟨-, ⟨-, e⟩ | ⟨a, -, e⟩ | ⟨-, e⟩ | ⟨-, j, e⟩ | ⟨-, w, e⟩ | ⟨-, r, v, e⟩ | ⟨g, -, e⟩⟩ :=
    inputStep_cases i s <;> rw [e] at h
  · cases h
    rw [resetStep_eq]
    rfl
  · cases h
    rfl
  · cases h
    rfl
  · cases h
    rfl
  · exact (operationFrame_of_outcome (exec_outcome h)).cmdAllowed
  · cases h
    rfl
  · cases h
    rw [writeReg_eq]
  · obtain rfl | ⟨-, -, rfl⟩ | ⟨-, rfl⟩ | ⟨-, -, -, -, rfl⟩ | ⟨-, -, -, -, rfl⟩ | ⟨-, rfl⟩ | ⟨-, rfl⟩ :=
      streamStep_cases g s t h <;> rfl

/-- Settles O39: no transition of the block writes the set. -/
theorem commandSetNeverChanges : Obligations.CommandSetNeverChanges := by
  intro s t h
  obtain ⟨i, rest, n, e⟩ := step_cases s
  have kept := inputStep_cmdAllowed (e.symm.trans h)
  exact kept

/-! ### The detail of an error (R37) -/

theorem errInfoInv_of_outcome {j : Instr} (h : OperationOutcome s j t) : ErrInfoInv t := by
  cases h with
  | cleared | completed | begun => rfl
  | unfit e he hi => obtain rfl | rfl | rfl := he <;> rfl
  | wrongLength hi hn => exact hn
  | rejected f hm hi hf => exact reason_range _ hm

theorem errInfoInv_of_inputStep (hinv : Inv s) (hinfo : ErrInfoInv s) (h : inputStep i s = .next t) : ErrInfoInv t := by
  obtain ⟨-, e⟩ | ⟨-, ⟨-, e⟩ | ⟨a, -, e⟩ | ⟨-, e⟩ | ⟨-, j, e⟩ | ⟨-, w, e⟩ | ⟨-, r, v, e⟩ | ⟨g, -, e⟩⟩ :=
    inputStep_cases i s <;> rw [e] at h
  · cases h
    rw [resetStep_eq]
    rfl
  · cases h
    exact hinfo
  · cases h
    exact hinfo
  · cases h
    exact hinfo
  · exact errInfoInv_of_outcome (exec_outcome h)
  · cases h
    rfl
  · cases h
    rw [writeReg_eq]
    exact hinfo
  · obtain rfl | ⟨-, -, rfl⟩ | ⟨-, rfl⟩ | ⟨-, -, -, -, rfl⟩ | ⟨-, -, -, -, rfl⟩ | ⟨hp, rfl⟩ | ⟨-, rfl⟩ :=
      streamStep_cases g s t h
    · exact hinfo
    · exact hinfo
    · exact .inl rfl
    · exact hinfo
    · exact hinfo
    · obtain ⟨-, received⟩ := hinv.status.rx_offset hp
      exact fun h26 => absurd received (by simp [show s.rxcnt = 26 from h26])
    · exact .inr rfl

/-- Settles O44: an operation reports the detail with its error, and of the stream's errors ResponseLengthError counts at
most 25 received bytes. -/
theorem errInfoFitsErrCode : Obligations.ErrInfoFitsErrCode := by
  intro s t hinv hinfo h
  obtain ⟨i, rest, n, e⟩ := step_cases s
  have listed : Inv { s with inputs := rest, drawn := n } := hinv.of_eq rfl
  exact errInfoInv_of_inputStep listed hinfo (e.symm.trans h)

/-! ### The wire (R134) -/

/-- The byte at offset TXCNT of a frame that passed every check has gone to the wire. -/
def SendsValidatedByte (s t : State) : Prop :=
  s.phase = .tx ∧ validationMask s.cmdAllowed s.txf = 0 ∧
    ∃ b, s.txf.toList[s.txcnt.toNat]? = some b ∧ t.wire = s.wire ++ [b]

theorem wireInv_of_idle (hb : s.busy = false) : WireInv s :=
  fun busy => by cases hb.symm.trans busy

theorem take_succ_toList {n : Nat} (src : Vector Byte n) {k : Nat} (hk : k < n) :
    src.toList.take (k + 1) = src.toList.take k ++ [src[k]] := by
  simp [List.take_add_one, hk]

/-- The byte sent continues the frame on the wire. -/
theorem take_succ_isSuffix {txf : Vector Byte 26} {n : Nat} {wire : List Byte} (hn : n < 26)
    (h : txf.toList.take n <:+ wire) : txf.toList.take (n + 1) <:+ wire ++ [txf[n]] := by
  obtain ⟨before, rfl⟩ := h
  exact ⟨before, by rw [take_succ_toList txf hn, List.append_assoc]⟩

theorem wireInv_of_outcome {j : Instr} (hb : s.busy = false) (h : OperationOutcome s j t) : WireInv t := by
  cases h with
  | begun => exact fun _ => List.nil_suffix
  | _ => exact wireInv_of_idle hb

theorem wire_of_streamStep {g : StreamSignals} (hinv : Inv s) (hwire : WireInv s) (h : streamStep g s = .next t) :
    WireInv t ∧ (t.wire = s.wire ∨ SendsValidatedByte s t) := by
  obtain rfl | ⟨hp, hlt, rfl⟩ | ⟨-, rfl⟩ | ⟨-, -, -, -, rfl⟩ | ⟨-, -, -, -, rfl⟩ | ⟨-, rfl⟩ | ⟨-, rfl⟩ :=
    streamStep_cases g s t h
  · exact ⟨hwire, .inl rfl⟩
  · have busy : s.busy = true := hinv.busy_of_phase (by simp [hp])
    refine ⟨fun _ => ?_, .inr ⟨hp, hinv.exchange.frame_valid busy, _, by simp [hlt], rfl⟩⟩
    rw [count_succ_toNat _ hlt]
    exact take_succ_isSuffix hlt (hwire busy)
  · exact ⟨wireInv_of_idle rfl, .inl rfl⟩
  · exact ⟨hwire, .inl rfl⟩
  · exact ⟨wireInv_of_idle rfl, .inl rfl⟩
  · exact ⟨wireInv_of_idle rfl, .inl rfl⟩
  · exact ⟨wireInv_of_idle rfl, .inl rfl⟩

theorem wire_of_inputStep (hinv : Inv s) (hwire : WireInv s) (h : inputStep i s = .next t) :
    WireInv t ∧ (t.wire = s.wire ∨ SendsValidatedByte s t) := by
  obtain ⟨-, e⟩ | ⟨-, ⟨-, e⟩ | ⟨a, -, e⟩ | ⟨-, e⟩ | ⟨hb, j, e⟩ | ⟨hb, w, e⟩ | ⟨hb, r, v, e⟩ | ⟨g, -, e⟩⟩ :=
    inputStep_cases i s <;> rw [e] at h
  · cases h
    rw [resetStep_eq]
    exact ⟨wireInv_of_idle rfl, .inl rfl⟩
  · cases h
    exact ⟨hwire, .inl rfl⟩
  · cases h
    exact ⟨hwire, .inl rfl⟩
  · cases h
    exact ⟨hwire, .inl rfl⟩
  · have outcome : OperationOutcome s j t := exec_outcome h
    exact ⟨wireInv_of_outcome hb outcome, .inl (operationFrame_of_outcome outcome).wire⟩
  · cases h
    exact ⟨wireInv_of_idle hb, .inl rfl⟩
  · cases h
    rw [writeReg_eq]
    exact ⟨wireInv_of_idle hb, .inl rfl⟩
  · exact wire_of_streamStep hinv hwire h

/-- Settles O43: only TxAccept in the TX phase puts a byte on the wire, the next one of the frame that by the invariant has
passed every check; an exchange begins with TXCNT 0. -/
theorem wireCarriesValidatedFrame : Obligations.WireCarriesValidatedFrame := by
  intro s t hinv hwire h
  obtain ⟨i, rest, n, e⟩ := step_cases s
  have listed : Inv { s with inputs := rest, drawn := n } := hinv.of_eq rfl
  have kept := wire_of_inputStep listed hwire (e.symm.trans h)
  exact kept

/-! ### The operands of a running exchange (R42) -/

/-- From `s` to `t` the operands of a running exchange are kept, but for VAL when a GETI completes. -/
structure OperandsKept (s t : State) : Prop where
  registers : t.addr = s.addr ∧ t.cmd = s.cmd ∧ t.plen = s.plen ∧ t.width = s.width ∧ t.ib = s.ib ∧ t.pl = s.pl ∧
    t.txf = s.txf ∧ t.xop = s.xop ∧ t.csum = s.csum
  val : t.val ≠ s.val → s.xop = 0x09 ∧ t.busy = false ∧ t.done = true

theorem operandsKept_of_streamStep {g : StreamSignals} (h : streamStep g s = .next t) : OperandsKept s t := by
  obtain rfl | ⟨-, -, rfl⟩ | ⟨-, rfl⟩ | ⟨-, -, -, -, rfl⟩ | ⟨-, r, v, hv, rfl⟩ | ⟨-, rfl⟩ | ⟨-, rfl⟩ :=
    streamStep_cases g s t h
  case inr.inr.inr.inr.inl => exact ⟨by simp, fun changed => ⟨hv changed, rfl, rfl⟩⟩
  all_goals exact ⟨by simp, fun changed => absurd rfl changed⟩

end

/-- Settles O29: while BUSY the host's writes are dropped, and the stream writes RXF, the counters and, at the end of a
GETI, VAL. -/
theorem operandsStableWhileBusy : Obligations.OperandsStableWhileBusy := by
  intro i s t busy hrst h
  suffices kept : OperandsKept s t from ⟨kept.registers, kept.val⟩
  obtain ⟨rst, -⟩ | ⟨-, ⟨-, e⟩ | ⟨a, -, e⟩ | ⟨-, e⟩ | ⟨idle, -⟩ | ⟨idle, -⟩ | ⟨idle, -⟩ | ⟨g, -, e⟩⟩ := inputStep_cases i s
  case inl => cases hrst.symm.trans rst
  case inr.inr.inr.inr.inl | inr.inr.inr.inr.inr.inl | inr.inr.inr.inr.inr.inr.inl => cases busy.symm.trans idle
  case inr.inr.inr.inr.inr.inr.inr => exact operandsKept_of_streamStep (e.symm.trans h)
  all_goals
    cases e.symm.trans h
    exact ⟨by simp, fun changed => absurd rfl changed⟩

end Sys2Proof.Machine

/-! PROOFS. The frame an operation builds and validates: the issue step of SEND, SENDI and GETI, BUILD followed by VOUT,
and the corruption of one byte (spec 41_frame_codec.md sections 2 and 5; 42_command_transport.md R132, R133, R140 to
R142). -/

namespace Sys2Proof.Machine

/-! ### The mask of a built frame (R132) -/

/-- A frame laid out by the block fails no check but those of its address and its command. -/
theorem validationMask_of_isFrame {set : CommandSet} {f : Vector Byte 26} {a c : Byte} {p : Fin 22 → Byte}
    (h : IsFrame f a c p) : validationMask set f = maskOf false (a == 0xFF) (!set.admits c) false := by
  obtain ⟨b0, b1, b2, b3⟩ := maskOf_bits false (a == 0xFF) (!set.admits c) false
  obtain ⟨start, address, command, -, sum⟩ := h
  apply validationMask_eq
  · simpa [start] using b0
  · simpa [address] using b1
  · simpa [command] using b2
  · simpa [sum] using b3

section
variable {s : State}

theorem targetMask_eq_zero_iff : targetMask s = 0 ↔ TargetOk s := by
  rw [targetMask, maskOf_eq_zero_iff]
  simp

theorem reason_targetMask (h : ¬ TargetOk s) : reason (targetMask s) = if s.addr = 0xFF then (2 : Byte) else 3 := by
  rw [targetMask, reason_maskOf]
  by_cases ha : s.addr = 0xFF
  · simp [ha]
  · have hc : s.cmdAllowed.admits s.cmd = false := Bool.eq_false_iff.mpr fun hc => h ⟨ha, hc⟩
    simp only [ha, hc, beq_eq_false_iff_ne.mpr ha]; decide

/-! ### The issue step (R131 to R133) -/

/-- The frame of ADDR, CMD and the payload `b`, put into TXF. -/
def frameInTxf (s : State) (b : List Byte) : Vector Byte 26 := putBytes s.txf 0 (frame s.addr s.cmd b)

theorem isFrame_frameInTxf {b : List Byte} {p : Fin 22 → Byte} (hb : b.length ≤ 22)
    (hp : ∀ i : Fin 22, b.getD i.val 0x00 = p i) : IsFrame (frameInTxf s b) s.addr s.cmd p :=
  funext hp ▸ isFrame_putBytes_frame s.txf s.addr s.cmd hb

theorem validationMask_frameInTxf {b : List Byte} (hb : b.length ≤ 22) :
    validationMask s.cmdAllowed (frameInTxf s b) = targetMask s :=
  validationMask_of_isFrame (isFrame_frameInTxf hb fun _ => rfl)

theorem issue_ok_of_fits {w : Byte} {b : List Byte} (hb : b.length ≤ 22) :
    issue (.ok b) (startOp w s) = validateThen beginExchange { startOp w s with txf := frameInTxf s b } :=
  buildThen_ok_of_fits hb _ _

variable {w : Byte} {b : List Byte} {p : Fin 22 → Byte}

/-- A target that fails its checks is rejected with the frame left in TXF. -/
theorem exists_issue_of_not_targetOk (hb : b.length ≤ 22) (hp : ∀ i : Fin 22, b.getD i.val 0x00 = p i) (h : ¬ TargetOk s) :
    ∃ f : Vector Byte 26, issue (.ok b) (startOp w s) =
        { afterError w .invalidFrame (if s.addr = 0xFF then (2 : Byte) else 3) s with txf := f, vmask := targetMask s } ∧
      IsFrame f s.addr s.cmd p := by
  refine ⟨frameInTxf s b, ?_, isFrame_frameInTxf hb hp⟩
  have mask : validationMask s.cmdAllowed (frameInTxf s b) = targetMask s := validationMask_frameInTxf hb
  obtain ⟨valid, -⟩ | ⟨-, rejected⟩ := validateThen_cases beginExchange { startOp w s with txf := frameInTxf s b }
  · exact absurd (targetMask_eq_zero_iff.mp (mask.symm.trans valid)) h
  · rw [issue_ok_of_fits hb, rejected, ← reason_targetMask h, ← mask]
    rfl

/-- With a target that passes the exchange begins. -/
theorem exists_issue_of_targetOk (hb : b.length ≤ 22) (hp : ∀ i : Fin 22, b.getD i.val 0x00 = p i) (h : TargetOk s) :
    ∃ f : Vector Byte 26, issue (.ok b) (startOp w s) = afterIssue w f s ∧ IsFrame f s.addr s.cmd p := by
  refine ⟨frameInTxf s b, ?_, isFrame_frameInTxf hb hp⟩
  have mask : validationMask s.cmdAllowed (frameInTxf s b) = 0 :=
    (validationMask_frameInTxf hb).trans (targetMask_eq_zero_iff.mpr h)
  obtain ⟨-, begun⟩ | ⟨invalid, -⟩ := validateThen_cases beginExchange { startOp w s with txf := frameInTxf s b }
  · rw [issue_ok_of_fits hb, begun]
    rfl
  · exact absurd mask invalid

/-- The first bytes of VAL continued with zeros are the payload of the statements (R84, R141). -/
theorem leEncode_getD (i : Fin 22) : (leEncode s.val.toNat s.width.toNat).getD i.val 0x00 = paddedVal s i := by
  by_cases hi : i.val < s.width.toNat
  · rw [List.getD_eq_getElem _ _ (by simpa using hi), leEncode_getElem_eq_extractLsb', paddedVal, if_pos hi]
  · rw [List.getD_eq_default _ _ (by simpa using hi), paddedVal, if_neg hi]

/-! ### SEND, SENDI and GETI (R140 to R142) -/

theorem exec_send_of_payloadTooLong (h : 22 < s.plen.toNat) :
    exec .send s = .next (afterError 0x07 .payloadTooLong 0x00 s) :=
  congrArg Host.Outcome.next (buildThen_ok_of_long (by simpa using h) _ (startOp 0x07 s))

theorem exec_sendi_of_error {e : ErrCode} (h : encodeInt s.val.toNat s.width.toNat = .error e) :
    exec .sendi s = .next (afterError 0x08 e 0x00 s) := by
  have operand : encodedOperand (startOp 0x08 s) = .error e := h
  simp only [exec, execSendi, operand]
  rfl

theorem exec_sendi_of_ok (h : encodeInt s.val.toNat s.width.toNat = .ok b) :
    exec .sendi s = .next (issue (.ok b) (startOp 0x08 s)) := by
  have operand : encodedOperand (startOp 0x08 s) = .ok b := h
  simp only [exec, execSendi, operand]

theorem exec_geti_of_supported (h : widthSupported s.width.toNat = true) :
    exec .geti s = .next (issue (.ok []) (startOp 0x09 s)) := by
  have operand : emptyOperand (startOp 0x09 s) = .ok [] := if_pos h
  simp only [exec, execGeti, operand]

end

/-- Settles O13: SEND's payload operand is PL padded with zeros. -/
theorem sendIssuesExchange : Obligations.SendIssuesExchange := by
  refine ⟨rfl, fun s => ⟨exec_send_of_payloadTooLong, fun hlen bad => ?rejected, fun hlen ok => ?begun⟩⟩
  all_goals have fits : (payloadOperand s).length ≤ 22 := by simpa using hlen
  case rejected =>
    obtain ⟨f, hf, laid⟩ := exists_issue_of_not_targetOk fits (payloadOperand_getD s) bad
    exact ⟨f, congrArg Host.Outcome.next hf, laid⟩
  case begun =>
    obtain ⟨f, hf, laid⟩ := exists_issue_of_targetOk fits (payloadOperand_getD s) ok
    exact ⟨f, congrArg Host.Outcome.next hf, laid⟩

/-- Settles O14: each clause is one answer of `encode`, and an encoding is at most four bytes long. -/
theorem sendiIssuesExchange : Obligations.SendiIssuesExchange := by
  refine ⟨rfl, fun s => ?_⟩
  simp only [widthOk_iff]
  refine ⟨fun hw => ?width, fun hw hv => ?range, fun hw hv bad => ?rejected, fun hw hv ok => ?begun⟩
  case width => exact exec_of_unsupportedWidth (by simp) (Bool.eq_false_of_not_eq_true hw)
  case range => exact exec_sendi_of_error (by simp [encodeInt, hw, hv])
  all_goals
    have encoded := encodeInt_of_fits hw hv
    have fits := (encodeInt_length_le encoded).trans (show 4 ≤ 22 by decide)
    rw [exec_sendi_of_ok encoded]
  case rejected =>
    obtain ⟨f, hf, laid⟩ := exists_issue_of_not_targetOk fits (fun i => leEncode_getD i) bad
    exact ⟨f, congrArg Host.Outcome.next hf, laid⟩
  case begun =>
    obtain ⟨f, hf, laid⟩ := exists_issue_of_targetOk fits (fun i => leEncode_getD i) ok
    exact ⟨f, congrArg Host.Outcome.next hf, laid⟩

/-- Settles O15: with the width supported GETI's payload is empty. -/
theorem getiIssuesExchange : Obligations.GetiIssuesExchange := by
  refine ⟨rfl, fun s => ?_⟩
  simp only [widthOk_iff]
  refine ⟨fun hw => ?width, fun hw bad => ?rejected, fun hw ok => ?begun⟩
  case width => exact exec_of_unsupportedWidth (by simp) (Bool.eq_false_of_not_eq_true hw)
  all_goals rw [exec_geti_of_supported hw]
  case rejected =>
    obtain ⟨f, hf, laid⟩ := exists_issue_of_not_targetOk (b := []) (by simp) (fun _ => rfl) bad
    exact ⟨f, congrArg Host.Outcome.next hf, laid⟩
  case begun =>
    obtain ⟨f, hf, laid⟩ := exists_issue_of_targetOk (b := []) (by simp) (fun _ => rfl) ok
    exact ⟨f, congrArg Host.Outcome.next hf, laid⟩

/-! ### BUILD, then VOUT (R112, R116) -/

/-- Settles O36: the frame BUILD leaves in TXF has the mask of its target, which VOUT reports. -/
theorem builtFrameValidates : Obligations.BuiltFrameValidates := by
  intro s hlen
  have mask : validationMask s.cmdAllowed (frameInTxf s (payloadOperand s)) = targetMask s :=
    validationMask_frameInTxf (by simpa using hlen)
  by_cases ok : TargetOk s
  · have empty : targetMask s = 0 := targetMask_eq_zero_iff.mpr ok
    exact ⟨_, _, exec_build_of_fits hlen, exec_vout_of_valid (mask.trans empty), rfl, empty.symm, iff_of_true rfl ok⟩
  · have failed : targetMask s ≠ 0 := targetMask_eq_zero_iff.not.mpr ok
    exact ⟨_, _, exec_build_of_fits hlen, exec_vout_of_invalid mask failed, rfl, rfl, iff_of_false nofun ok⟩

/-! ### The corruption of one byte (41_frame_codec.md section 5) -/

/-- Replacing one of the summed bytes changes the sum by the difference of the two bytes. -/
theorem frameSum_set (f : Vector Byte 26) (k : Fin 25) (b : Byte) :
    frameSum (f.set k.val b (by omega)) + (f[k.val]'(by omega)).toNat = frameSum f + b.toNat := by
  simp only [frameSum, ← Finset.add_sum_erase _ _ (Finset.mem_univ k)]
  have others : ∀ i ∈ Finset.univ.erase k,
      ((f.set k.val b (by omega))[i.val]'(by omega)).toNat = (f[i.val]'(by omega)).toNat := by
    intro i hi
    have : k.val ≠ i.val := fun h => Finset.ne_of_mem_erase hi (Fin.ext h.symm)
    rw [Vector.getElem_set_ne _ _ this]
  rw [Finset.sum_congr rfl others, Vector.getElem_set_self]
  omega

/-- The checksum test is bit 3 of the mask (R12). -/
theorem validationMask_sumBit (set : CommandSet) (f : Vector Byte 26) :
    (validationMask set f)[3] = (f[25].toNat != frameSum f % 256) := by
  obtain ⟨-, -, -, bit⟩ :=
    maskOf_bits (f[0] != 0xAA) (f[1] == 0xFF) (!set.admits f[2]) (f[25] != checksum (bytesAt f 0 25))
  exact bit.trans (bne_checksum_eq f)

/-- Settles O37: byte 25 is kept, and the sum modulo 256 changes since two different bytes differ by less than 256. -/
theorem singleByteCorruptionCaught : Obligations.SingleByteCorruptionCaught := by
  intro set f k b valid hb
  have summed : f[25].toNat = frameSum f % 256 := by
    have passed := validationMask_sumBit set f
    simpa [valid] using passed
  have kept : (f.set k.val b (by omega))[25] = f[25] := Vector.getElem_set_ne _ _ (by omega)
  have sums := frameSum_set f k b
  have differ : b.toNat ≠ (f[k.val]'(by omega)).toNat := fun h => hb (BitVec.eq_of_toNat_eq h)
  have := b.isLt
  have := (f[k.val]'(by omega)).isLt
  rw [validationMask_sumBit, kept, bne_iff_ne]
  omega

end Sys2Proof.Machine

/-! PROOFS. The integer codec's round trips and `encode` over all naturals (spec 40_integer_codec.md R100, section 3). -/

namespace Sys2Proof.Machine

/-- A byte of an encoding is the digit of its place in base 256 (R12). -/
theorem leEncode_getElem_toNat (v w i : Nat) (h : i < (leEncode v w).length) :
    (leEncode v w)[i].toNat = v / 2 ^ (8 * i) % 256 := by
  rw [leEncode_getElem, BitVec.toNat_ofNat]

/-- Settles O33: the width is tested first, then the range. -/
theorem encodeFunctionOverNaturals : Obligations.EncodeFunctionOverNaturals := by
  intro v w
  simp only [← widthSupported_iff]
  refine ⟨fun h1 h2 h4 => ?width, fun hw hv => ?range, fun hw hv => ?encoded⟩
  case width => exact encodeInt_of_unsupported (by simp [widthSupported, h1, h2, h4])
  case range => simp [encodeInt, hw, hv]
  case encoded => exact ⟨_, encodeInt_of_fits hw hv, leEncode_length v w, leEncode_getElem_toNat v w⟩

/-- Decoding undoes encoding on every value the width can hold. -/
theorem leDecode_leEncode {v w : Nat} (hv : v < 2 ^ (8 * w)) : leDecode (leEncode v w) = v := by
  induction w generalizing v with
  | zero =>
    have : v = 0 := by simpa using hv
    rw [this]
    rfl
  | succ w ih =>
    have high : v / 256 < 2 ^ (8 * w) := by
      rw [Nat.mul_succ, pow_add] at hv
      omega
    rw [leEncode_succ, leDecode, ih high, BitVec.toNat_ofNat]
    omega

/-- Encoding undoes decoding on every sequence. -/
theorem leEncode_leDecode (s : List Byte) : leEncode (leDecode s) s.length = s := by
  induction s with
  | nil => rfl
  | cons b s ih =>
    have low : BitVec.ofNat 8 (b.toNat + 256 * leDecode s) = b := by
      apply BitVec.eq_of_toNat_eq
      have := b.isLt
      rw [BitVec.toNat_ofNat]
      omega
    have high : (b.toNat + 256 * leDecode s) / 256 = leDecode s := by
      have := b.isLt
      omega
    rw [leDecode, List.length_cons, leEncode_succ, low, high, ih]

/-- Settles O35: the functions undo one another, and DEC reads the bytes that ENC has put into IB. -/
theorem codecRoundTrips : Obligations.CodecRoundTrips := by
  refine ⟨fun v w hw hv => ?decodes, fun b hb => ?encodes, fun s hw hv => ?operations⟩
  case decodes =>
    rw [← widthSupported_iff] at hw
    have decoded : decodeInt (leEncode v w) = .ok (leDecode (leEncode v w)) := decodeInt_of_supported (by simpa using hw)
    exact ⟨_, encodeInt_of_fits hw hv, decoded.trans (congrArg _ (leDecode_leEncode hv))⟩
  case encodes =>
    rw [← widthSupported_iff] at hb
    exact ⟨_, decodeInt_of_supported hb, (encodeInt_of_fits hb (leDecode_lt b)).trans (congrArg _ (leEncode_leDecode b))⟩
  case operations =>
    rw [widthOk_iff] at hw
    have fits : (leEncode s.val.toNat s.width.toNat).length ≤ 4 := encodeInt_length_le (encodeInt_of_fits hw hv)
    have put : bytesAt (putBytes s.ib 0 (leEncode s.val.toNat s.width.toNat)) 0 s.width.toNat =
        leEncode s.val.toNat s.width.toNat := by
      have := bytesAt_putBytes_append s.ib (leEncode s.val.toNat s.width.toNat) [] fits
      rwa [List.append_nil, leEncode_length] at this
    refine ⟨_, _, exec_enc_of_ok (encodeInt_of_fits hw hv), exec_dec_of_supported hw, ?value, rfl, rfl⟩
    case value => exact (congrArg (BitVec.ofNat 32 ∘ leDecode) put).trans (by simp [leDecode_leEncode hv])

end Sys2Proof.Machine

/-! PROOFS. The block's surface: its steps by their inputs, what the host reads, the output ports, reset, and the default
command set (spec 00_scope.md R6; 10_state.md R46; 43_host_access_and_control.md R160; 70_reset_and_hazards.md R200). -/

namespace Sys2Proof.Machine

/-! ### Steps and their inputs (R13) -/

/-- Settles O5: the first input is taken away, and an accepted write to OP of a legal word runs its operation. -/
theorem stepRunsDecodedOperation : Obligations.StepRunsDecodedOperation := by
  refine ⟨fun s i rest => step_of_inputs, fun s none => ?free, fun s a v g => ⟨rfl, rfl, rfl⟩,
    fun s w i rest next idle hi => ?op⟩
  case free => simp [step, nextInput, none]
  case op =>
    have accepted : hostWrite 0x00 w { s with inputs := rest } = exec i { s with inputs := rest } :=
      (hostWrite_op_of_idle (s := { s with inputs := rest }) idle).trans (opWrite_of_ok hi _)
    exact (step_of_inputs next).trans accepted

/-! ### The signals of the stream (R64, R65) -/

section
variable {g : StreamSignals} {s : State}

theorem streamStep_of_txReady (hp : s.phase = .tx) (he : g.txErr = false) (hr : g.txReady = true) :
    streamStep g s = onTxAccept s := by
  have answer : g.txAnswer = some .accept := by simp [StreamSignals.txAnswer, he, hr]
  rw [streamStep_of_tx hp, answer, txStep]

/-- Without an answer in the current phase the exchange waits. -/
theorem streamStep_of_not_answered (waits : ¬ Answered g s) : streamStep g s = .next s := by
  cases hp : s.phase with
  | idle => exact streamStep_of_idle g hp
  | tx =>
    have none : g.txAnswer = none := by simpa [Answered, hp] using waits
    rw [streamStep_of_tx hp, none, txStep]
  | rx =>
    have none : g.rxAnswer = none := by simpa [Answered, hp] using waits
    rw [streamStep_of_rx hp, none, rxStep]

theorem txData_of_tx (hp : s.phase = .tx) (hlt : s.txcnt.toNat < 26) : txData false s = some s.txf[s.txcnt.toNat] := by
  simp [txData, txValid, hp, hlt]

end

/-- Settles O18: the byte on the port is the one TxAccept takes, and TXCNT reaches 26 from 25. -/
theorem txAcceptSendsNextByte : Obligations.TxAcceptSendsNextByte := by
  intro s g hlt hp he hr
  refine ⟨txData_of_tx hp hlt, ?sent⟩
  case sent =>
    rw [streamStep_of_txReady hp he hr, onTxAccept_of_lt hlt]
    simp only [count_succ_eq_26, hp]

/-- Settles O23: in a phase the signals of the other give no answer. -/
theorem signalsOutsideTheirPhaseIgnored : Obligations.SignalsOutsideTheirPhaseIgnored := by
  intro s g
  refine ⟨streamStep_of_idle g, fun hp he hr => streamStep_of_not_answered ?tx,
    fun hp he ht hv => streamStep_of_not_answered ?rx⟩
  case tx => simp [Answered, hp, StreamSignals.txAnswer, he, hr]
  case rx => simp [Answered, hp, StreamSignals.rxAnswer, he, ht, hv]

/-! ### What the host reads (R160) -/

theorem regOf_reserved (a : Byte) (h : (0x14 ≤ a.toNat ∧ a.toNat ≤ 0x1F) ∨ (0x36 ≤ a.toNat ∧ a.toNat ≤ 0x3F) ∨
    (0x5A ≤ a.toNat ∧ a.toNat ≤ 0x5F) ∨ 0x7A ≤ a.toNat) : regOf a = .reserved := by
  revert a; decide

/-- Settles O27: the registers by the address map, and STATUS by its fields. -/
theorem hostReadReturnsRegisters : Obligations.HostReadReturnsRegisters := by
  intro s
  refine ⟨⟨rfl, rfl, rfl, rfl, rfl, rfl, rfl, rfl, rfl, rfl⟩, ?status, ?errCode, fun k => ?val, fun i => ?ib, fun i => ?pl,
    fun i => ?txf, fun i => ?rxf, fun a ha => ?reserved, fun a => rfl⟩
  case status =>
    obtain ⟨busy, done, err, ovr, phase, b6, b7⟩ := statusOf_fields s.phase s.ovr s.err s.done s.busy
    refine ⟨busy, done, err, ovr, phase.trans ?_, b6, b7⟩
    cases s.phase <;> rfl
  case errCode =>
    have read : hostRead 0x02 s = s.errCode.code.setWidth 8 := rfl
    rw [read]
    cases s.errCode <;> rfl
  case val => rw [hostRead, regOf_val]; rfl
  case ib => rw [hostRead, regOf_ib]; rfl
  case pl => rw [hostRead, regOf_pl]; rfl
  case txf => rw [hostRead, regOf_txf]; rfl
  case rxf => rw [hostRead, regOf_rxf]; rfl
  case reserved => rw [hostRead, regOf_reserved a ha]; rfl

/-! ### The output ports and the payload window (R31, R46) -/

/-- Settles O45: each port by its definition, and the window byte by byte. -/
theorem portsShowState : Obligations.PortsShowState := by
  intro s
  refine ⟨by simp [txValid], by simp [rxReady], ⟨rfl, rfl⟩, fun h hp => txData_of_tx hp h, fun rst quiet => ?silent, rfl,
    bytesAt_length _ _ _, fun i => ?window⟩
  case silent => simp [txData, quiet]
  case window =>
    have inside : i.val < (payloadWindow s).length := by simp [payloadWindow]
    rw [List.getElem?_eq_getElem inside]
    exact congrArg some (bytesAt_getElem s.rxf 3 22 i inside (by omega))

/-! ### Reset (R200, R201) -/

/-- Settles O31: `rst` decides the step, which puts the block's registers as in `State.reset` and keeps the model's own
fields. -/
theorem rstResetsFromAnyState : Obligations.RstResetsFromAnyState := by
  intro s act
  refine ⟨rfl, rfl, resetStep act s, rfl, ?registers⟩
  case registers =>
    cases act with
    | hostRead a => exact ⟨rfl, rfl, rfl, rfl, rfl, fun noRead => absurd rfl (noRead a), fun b hb => by cases hb; rfl⟩
    | quiet | hostWrite | stream => exact ⟨rfl, rfl, rfl, rfl, rfl, fun _ => rfl, nofun⟩

/-! ### The default command set (R6) -/

theorem defaultCommands_admits_iff (c : Byte) :
    Config.defaultCommands.admits c = true ↔ c = 0x12 ∨ (0x20 ≤ c.toNat ∧ c.toNat ≤ 0x6C) := by
  revert c; decide

/-- Settles O38: the bitmap code by code. -/
theorem defaultCommandSet : Obligations.DefaultCommandSet :=
  ⟨defaultCommands_admits_iff, by decide +kernel⟩

end Sys2Proof.Machine

/-! PROOFS. How an exchange ends: the events it can still take, and the liveness premises TX_LIVE and that of the read
(spec 42_command_transport.md section 2, R146; 70_reset_and_hazards.md R211). -/

namespace Sys2Proof.Machine

/-! ### The events an exchange can still take (R146) -/

section
variable {g : StreamSignals} {s t : State}

theorem eventsLeft_le (s : State) : eventsLeft s ≤ 52 := by
  unfold eventsLeft
  split <;> omega

theorem eventsLeft_of_idle (hp : s.phase = .idle) : eventsLeft s = 0 := by simp only [eventsLeft, hp]

theorem eventsLeft_of_tx (hp : s.phase = .tx) : eventsLeft s = (26 - s.txcnt.toNat) + 26 := by simp only [eventsLeft, hp]

theorem eventsLeft_of_rx (hp : s.phase = .rx) : eventsLeft s = 26 - s.rxcnt.toNat := by simp only [eventsLeft, hp]

/-- In the TX phase the 26 events of the read and at least one of the write are left. -/
theorem Inv.lt_eventsLeft_of_tx (h : Inv s) (hp : s.phase = .tx) : 26 < eventsLeft s := by
  have := h.status.tx_offset hp
  rw [eventsLeft_of_tx hp]
  omega

theorem Inv.eventsLeft_pos_of_rx (h : Inv s) (hp : s.phase = .rx) : 0 < eventsLeft s := by
  obtain ⟨-, received⟩ := h.status.rx_offset hp
  rw [eventsLeft_of_rx hp]
  omega

theorem Inv.eventsLeft_pos (h : Inv s) (hb : s.busy = true) : 0 < eventsLeft s := by
  cases hp : s.phase with
  | idle => exact absurd hp (h.status.busy_iff_phase.mp hb)
  | tx => exact Nat.zero_lt_of_lt (h.lt_eventsLeft_of_tx hp)
  | rx => exact h.eventsLeft_pos_of_rx hp

/-- The two phases of an exchange share no number of events left. -/
theorem eventsLeft_ne_of_phase_ne (hs : Inv s) (ht : Inv t) (busy : s.busy = true) (busy' : t.busy = true)
    (ne : s.phase ≠ t.phase) : eventsLeft s ≠ eventsLeft t := by
  have read {u : State} (hu : u.phase = .rx) : eventsLeft u ≤ 26 := by
    rw [eventsLeft_of_rx hu]
    omega
  cases hp : s.phase <;> cases hp' : t.phase
  case idle.idle | idle.tx | idle.rx => exact absurd hp (hs.status.busy_iff_phase.mp busy)
  case tx.idle | rx.idle => exact absurd hp' (ht.status.busy_iff_phase.mp busy')
  case tx.tx | rx.rx => exact absurd (hp.trans hp'.symm) ne
  case tx.rx => exact ((read hp').trans_lt (hs.lt_eventsLeft_of_tx hp)).ne'
  case rx.tx => exact ((read hp).trans_lt (ht.lt_eventsLeft_of_tx hp')).ne

/-- A byte sent is one event; with the 26th the TX phase has none left and the read has its 26. -/
theorem Inv.eventsLeft_onTxAccept (h : Inv s) (hp : s.phase = .tx) (ht : onTxAccept s = .next t) :
    eventsLeft t < eventsLeft s := by
  have hlt : s.txcnt.toNat < 26 := Nat.lt_succ_of_le (h.status.tx_offset hp)
  have count := count_succ_toNat s.txcnt hlt
  obtain rfl := Host.Outcome.next.inj ((onTxAccept_of_lt hlt).symm.trans ht)
  by_cases last : s.txcnt + 1 = 26
  · rw [eventsLeft_of_tx hp, eventsLeft_of_rx (if_pos last)]
    omega
  · rw [eventsLeft_of_tx hp, eventsLeft_of_tx ((if_neg last).trans hp)]
    simp only [count]
    omega

theorem completeExchange_phase (ht : completeExchange s = .next t) : t.phase = .idle := by
  obtain ⟨-, e⟩ | ⟨-, -, e⟩ | ⟨-, -, e⟩ := completeExchange_cases s <;> cases e.symm.trans ht <;> rfl

/-- A byte received is one event. -/
theorem Inv.eventsLeft_onRxByte (h : Inv s) (hp : s.phase = .rx) {b : Byte} (ht : onRxByte b s = .next t) :
    eventsLeft t < eventsLeft s := by
  obtain ⟨hlt, -, e⟩ | ⟨_, -, e⟩ | ⟨-, e⟩ := onRxByte_cases b s <;> rw [e] at ht
  · cases ht
    have received :
        eventsLeft { s with rxf := s.rxf.set s.rxcnt.toNat b, rxcnt := s.rxcnt + 1 } = 26 - (s.rxcnt + 1).toNat :=
      eventsLeft_of_rx hp
    rw [received, eventsLeft_of_rx hp, count_succ_toNat _ hlt]
    omega
  · rw [eventsLeft_of_idle (completeExchange_phase ht)]
    exact h.eventsLeft_pos_of_rx hp
  · cases ht

theorem Inv.eventsLeft_lt_of_answered (h : Inv s) (answered : Answered g s) (ht : streamStep g s = .next t) :
    eventsLeft t < eventsLeft s := by
  obtain ⟨hp, answer⟩ | ⟨hp, answer⟩ := answered
  · rw [streamStep_of_tx hp] at ht
    obtain e | e | e := txAnswer_cases g <;> rw [e] at ht answer
    · cases answer
    · exact h.eventsLeft_onTxAccept hp ht
    · cases ht
      exact Nat.zero_lt_of_lt (h.lt_eventsLeft_of_tx hp)
  · rw [streamStep_of_rx hp] at ht
    rcases e : g.rxAnswer with _ | b | _ | _ <;> rw [e] at ht answer
    · cases answer
    · exact h.eventsLeft_onRxByte hp ht
    · cases ht
      exact h.eventsLeft_pos_of_rx hp
    · cases ht
      exact h.eventsLeft_pos_of_rx hp

theorem busy_of_answered (h : Inv s) (answered : Answered g s) : s.busy = true := by
  obtain ⟨hp, -⟩ | ⟨hp, -⟩ := answered <;> exact h.busy_of_phase (by simp [hp])

/-- Settles O24: an answer takes an event away, and a state with no event left is idle, where only a completion leads. -/
theorem answersShortenTheExchange : Obligations.AnswersShortenTheExchange := by
  refine ⟨eventsLeft_le, fun s t g h answered ht => ⟨h.eventsLeft_lt_of_answered answered ht, fun none => ?ended⟩⟩
  case ended =>
    have idle : t.busy = false := by
      by_contra hb
      have := (h.of_streamStep ht).eventsLeft_pos (Bool.eq_true_of_not_eq_false hb)
      omega
    obtain kept | done := streamStep_busy_or_done ht
    · cases idle.symm.trans (kept.trans (busy_of_answered h answered))
    · exact ⟨idle, done⟩

/-! ### Runs (R66, R70, R211) -/

/-- While an exchange is in progress no input adds an event to it. -/
theorem Inv.eventsLeft_le_of_inputStep {i : Input} (h : Inv s) (hb : s.busy = true) (ht : inputStep i s = .next t) :
    eventsLeft t ≤ eventsLeft s := by
  obtain ⟨-, e⟩ | ⟨-, ⟨-, e⟩ | ⟨a, -, e⟩ | ⟨-, e⟩ | ⟨idle, -⟩ | ⟨idle, -⟩ | ⟨idle, -⟩ | ⟨g, -, e⟩⟩ := inputStep_cases i s
  · cases e.symm.trans ht
    rw [resetStep_eq]
    exact Nat.zero_le _
  · cases e.symm.trans ht
    exact le_rfl
  · cases e.symm.trans ht
    exact le_rfl
  · cases e.symm.trans ht
    exact le_rfl
  · cases hb.symm.trans idle
  · cases hb.symm.trans idle
  · cases hb.symm.trans idle
  · have ht := e.symm.trans ht
    by_cases answered : Answered g s
    · exact (h.eventsLeft_lt_of_answered answered ht).le
    · cases (streamStep_of_not_answered answered).symm.trans ht
      exact le_rfl

end

section
variable {env : Nat → Input} {run : Nat → State}

theorem inv_of_isRun (hrun : IsRun env run) (h0 : Inv (run 0)) (n : Nat) : Inv (run n) := by
  induction n with
  | zero => exact h0
  | succ n ih => exact ih.of_inputStep (hrun n)

/-- Along a run the block becomes idle, or the events left never grow. -/
theorem idle_or_eventsLeft_le (hrun : IsRun env run) (h0 : Inv (run 0)) {n m : Nat} (hnm : n ≤ m) :
    (∃ k, n ≤ k ∧ (run k).busy = false) ∨ eventsLeft (run m) ≤ eventsLeft (run n) := by
  induction m, hnm using Nat.le_induction with
  | base => exact .inr le_rfl
  | succ m hnm ih =>
    obtain idle | le := ih
    · exact .inl idle
    · cases hb : (run m).busy with
      | false => exact .inl ⟨m, hnm, hb⟩
      | true => exact .inr (((inv_of_isRun hrun h0 m).eventsLeft_le_of_inputStep hb (hrun m)).trans le)

theorem eventsLeft_lt_of_answeredAt (hrun : IsRun env run) (h0 : Inv (run 0)) {m : Nat} (answered : AnsweredAt env run m) :
    eventsLeft (run (m + 1)) < eventsLeft (run m) := by
  obtain ⟨g, hg, answer⟩ := answered
  have taken : streamStep g (run m) = .next (run (m + 1)) := by
    have := hrun m
    rwa [hg] at this
  exact (inv_of_isRun hrun h0 m).eventsLeft_lt_of_answered answer taken

/-- The premise of the current phase: the stream answers in it, or the phase is left. -/
theorem exists_left_or_answeredAt (tx : TxLive env run) (rx : RxLive env run) {n : Nat} (hn : (run n).phase ≠ .idle) :
    ∃ m, n ≤ m ∧ ((run m).phase ≠ (run n).phase ∨ AnsweredAt env run m) := by
  cases hp : (run n).phase with
  | idle => exact absurd hp hn
  | tx => exact tx n hp
  | rx => exact rx n hp

/-- Under the two premises the block becomes idle or the exchange loses an event: an answer takes one away, and so does
leaving a phase for the other, since the events left differ and never grow. -/
theorem idle_or_eventsLeft_lt (hrun : IsRun env run) (h0 : Inv (run 0)) (tx : TxLive env run) (rx : RxLive env run)
    (n : Nat) : ∃ m, n ≤ m ∧ ((run m).busy = false ∨ eventsLeft (run m) < eventsLeft (run n)) := by
  have inv := inv_of_isRun hrun h0
  cases hn : (run n).busy with
  | false => exact ⟨n, le_rfl, .inl hn⟩
  | true =>
    have inPhase : (run n).phase ≠ .idle := (inv n).status.busy_iff_phase.mp hn
    obtain ⟨m, hnm, left | answered⟩ := exists_left_or_answeredAt tx rx inPhase
    all_goals obtain ⟨k, hk, idle⟩ | le := idle_or_eventsLeft_le hrun h0 hnm
    case inl.inl | inr.inl => exact ⟨k, hk, .inl idle⟩
    case inl.inr =>
      cases hm : (run m).busy with
      | false => exact ⟨m, hnm, .inl hm⟩
      | true =>
        exact ⟨m, hnm, .inr (lt_of_le_of_ne le (eventsLeft_ne_of_phase_ne (inv m) (inv n) hm hn left))⟩
    case inr.inr => exact ⟨m + 1, by omega, .inr ((eventsLeft_lt_of_answeredAt hrun h0 answered).trans_le le)⟩

end

/-- Settles O25: by induction on the events left, of which the premises take one away until the block is idle. -/
theorem exchangeEndsUnderTxLive : Obligations.ExchangeEndsUnderTxLive := by
  intro env run hrun h0 tx rx n
  induction left : eventsLeft (run n) using Nat.strong_induction_on generalizing n with
  | _ k ih =>
    obtain ⟨m, hnm, idle | lt⟩ := idle_or_eventsLeft_lt hrun h0 tx rx n
    · exact ⟨m, hnm, idle⟩
    · obtain ⟨j, hmj, idle⟩ := ih _ (left ▸ lt) m rfl
      exact ⟨j, hnm.trans hmj, idle⟩

end Sys2Proof.Machine

/-! PROOFS. A whole exchange: 26 bytes sent, 26 bytes received (spec 42_command_transport.md R134, R136, R138). -/

namespace Sys2Proof.Machine

/-! ### Runs of several steps -/

/-- A run goes on from the state its first part reaches. -/
theorem run_add_of_run {M : Host.Core} {m : Nat} {s t : M.State} (n : Nat) (h : M.run m s = .next t) :
    M.run (m + n) s = M.run n t := by
  induction m generalizing s with
  | zero =>
    cases h
    rw [Nat.zero_add]
  | succ m ih =>
    rw [Nat.succ_add]
    cases hstep : M.step s <;> simp only [Host.Core.run, hstep] at h ⊢
    case next u => exact ih h
    all_goals cases h

theorem run_succ_of_step {M : Host.Core} (n : Nat) {s t : M.State} (h : M.step s = .next t) :
    M.run (n + 1) s = M.run n t := by
  rw [Host.Core.run, h]

/-! ### The bytes of a buffer put one after the other -/

section
variable {n : Nat} (buf src : Vector Byte n)

theorem putBytes_nil : putBytes buf 0 [] = buf := by
  ext1 i hi
  exact putBytes_outside buf 0 i [] hi (by simp)

theorem putBytes_toList : putBytes buf 0 src.toList = src := by
  ext1 i hi
  simpa using putBytes_inside buf 0 i src.toList hi (Nat.zero_le i) (by simpa using hi)

/-- With `src[k]` put after the first `k` bytes of `src` its first `k + 1` bytes are there. -/
theorem set_putBytes_take {k : Nat} (hk : k < n) :
    (putBytes buf 0 (src.toList.take k)).set k src[k] = putBytes buf 0 (src.toList.take (k + 1)) := by
  ext1 i hi
  rw [Vector.getElem_set]
  obtain before | rfl | after := lt_trichotomy i k
  · rw [if_neg (by omega), putBytes_inside _ 0 i _ hi (by omega) (by simp; omega),
      putBytes_inside _ 0 i _ hi (by omega) (by simp; omega)]
    simp
  · rw [if_pos rfl, putBytes_inside _ 0 i _ hi (by omega) (by simp; omega)]
    simp
  · rw [if_neg (by omega), putBytes_outside _ 0 i _ hi (by simp; omega), putBytes_outside _ 0 i _ hi (by simp; omega)]

end

/-! ### The counters (R30, R33) -/

theorem ofNat_add_one_eq_26_iff {k : Nat} (hk : k < 26) : BitVec.ofNat 8 k + 1#8 = 26#8 ↔ k = 25 := by
  rw [← BitVec.ofNat_add, ← BitVec.toNat_inj, BitVec.toNat_ofNat, BitVec.toNat_ofNat]
  omega

theorem toNat_ofNat_of_lt {k : Nat} (hk : k < 26) : (BitVec.ofNat 8 k).toNat = k := by
  rw [BitVec.toNat_ofNat]
  omega

/-! ### The write (R134) -/

/-- The exchange of `s` with `k` bytes sent and `rest` still to come. -/
def afterSent (s : State) (k : Nat) (rest : List Input) : State :=
  { s with
    inputs := rest, wire := s.wire ++ s.txf.toList.take k, txcnt := BitVec.ofNat 8 k
    phase := if k = 26 then .rx else .tx }

section
variable (s : State) {k : Nat} (rest : List Input)

theorem step_afterSent (hk : k < 26) :
    step (afterSent s k (Input.txAccept :: rest)) = .next (afterSent s (k + 1) rest) := by
  have count : (afterSent s k rest).txcnt.toNat = k := toNat_ofNat_of_lt hk
  have phase : (afterSent s k rest).phase = .tx := if_neg (by omega)
  calc step (afterSent s k (Input.txAccept :: rest))
      = inputStep .txAccept (afterSent s k rest) := step_of_inputs rfl
    _ = streamStep { txReady := true } (afterSent s k rest) := rfl
    _ = onTxAccept (afterSent s k rest) := streamStep_of_txReady phase rfl rfl
    _ = .next (afterSent s (k + 1) rest) := by
      rw [onTxAccept_of_lt (by omega)]
      simp [afterSent, BitVec.ofNat_add, ofNat_add_one_eq_26_iff hk, take_succ_toList s.txf hk, toNat_ofNat_of_lt hk, hk.ne]

theorem run_afterSent (hk : k ≤ 26) :
    Host.Core.run Sys2Proof.core k (afterSent s 0 (List.replicate k Input.txAccept ++ rest)) =
      .next (afterSent s k rest) := by
  induction k generalizing rest with
  | zero => rfl
  | succ k ih =>
    have first := ih (Input.txAccept :: rest) (by omega)
    rw [List.replicate_succ', List.append_assoc]
    exact (run_add_of_run 1 first).trans (run_succ_of_step 0 (step_afterSent s rest (by omega)))

end

/-! ### The read (R136) -/

/-- The exchange of `s` with the whole frame sent, the first `k` bytes of `resp` received and `rest` still to come. -/
def afterReceived (s : State) (resp : Vector Byte 26) (k : Nat) (rest : List Input) : State :=
  { s with
    inputs := rest, wire := s.wire ++ s.txf.toList, txcnt := 26, rxcnt := BitVec.ofNat 8 k
    rxf := putBytes s.rxf 0 (resp.toList.take k), phase := .rx }

section
variable (s : State) (resp : Vector Byte 26) {k : Nat} (rest : List Input)

theorem step_rxByte_afterReceived (b : Byte) :
    step (afterReceived s resp k (Input.rxByte b :: rest)) =
      streamStep { rxValid := true, rxData := b } (afterReceived s resp k rest) :=
  (step_of_inputs rfl).trans rfl

theorem step_afterReceived (hk : k < 25) :
    step (afterReceived s resp k (Input.rxByte resp[k] :: rest)) = .next (afterReceived s resp (k + 1) rest) := by
  have count : (afterReceived s resp k rest).rxcnt.toNat = k := toNat_ofNat_of_lt (by omega)
  have more : (afterReceived s resp k rest).rxcnt ≠ 25 := by
    rw [ne_eq, ← BitVec.toNat_inj, count]
    exact hk.ne
  rw [step_rxByte_afterReceived, streamStep_of_rxValid rfl rfl rfl rfl, onRxByte_of_not_last _ (by omega) more]
  simp [afterReceived, BitVec.ofNat_add, toNat_ofNat_of_lt (show k < 26 by omega), set_putBytes_take]

theorem run_afterReceived (hk : k ≤ 25) :
    Host.Core.run Sys2Proof.core k (afterReceived s resp 0 ((resp.toList.take k).map Input.rxByte ++ rest)) =
      .next (afterReceived s resp k rest) := by
  induction k generalizing rest with
  | zero => rfl
  | succ k ih =>
    have first := ih (Input.rxByte resp[k] :: rest) (by omega)
    have bytes : (resp.toList.take (k + 1)).map Input.rxByte ++ rest =
        (resp.toList.take k).map Input.rxByte ++ Input.rxByte resp[k] :: rest := by
      simp [take_succ_toList resp (show k < 26 by omega)]
    rw [bytes]
    exact (run_add_of_run 1 first).trans (run_succ_of_step 0 (step_afterReceived s resp rest (by omega)))

end

/-! ### The whole exchange (R138) -/

/-- The 26th byte completes the exchange; GETI alone decodes the response. -/
theorem step_afterReceived_last (s : State) (resp : Vector Byte 26) (rest : List Input)
    (hw : s.xop = 0x09 → WidthOk s) :
    step (afterReceived s resp 25 (Input.rxByte resp[25] :: rest)) = .next { s with
      inputs := rest, wire := s.wire ++ s.txf.toList, txcnt := 26, rxcnt := 26, rxf := resp
      phase := .idle, busy := false, done := true
      val := if s.xop = 0x09 then littleEndian s.width.toNat resp[3] resp[4] resp[5] resp[6] else s.val } := by
  have whole : (putBytes s.rxf 0 (resp.toList.take 25)).set 25 resp[25] = resp := by
    rw [set_putBytes_take s.rxf resp (by decide), List.take_of_length_le (by simp), putBytes_toList]
  have received (j : Nat) (hj : j < 25) : (putBytes s.rxf 0 (resp.toList.take 25))[j] = resp[j] := by
    rw [putBytes_inside _ 0 j _ (by omega) (by omega) (by simp; omega)]
    simp
  rw [step_rxByte_afterReceived]
  obtain ⟨-, done, decoded⟩ := rxByteStoresAndCompletes (afterReceived s resp 25 rest)
    { rxValid := true, rxData := resp[25] } (show (25 : Byte).toNat < 26 by decide) rfl rfl rfl rfl
  by_cases hx : s.xop = 0x09
  · rw [decoded rfl hx (hw hx), if_pos hx]
    simp [afterReceived, whole, received]
  · rw [done rfl hx, if_neg hx]
    simp [afterReceived, whole]

/-- At its start an exchange has sent nothing. -/
theorem afterSent_zero {s : State} (hp : s.phase = .tx) (hcnt : s.txcnt = 0) : afterSent s 0 s.inputs = s := by
  have none : 0#8 = s.txcnt := hcnt.symm
  simp [afterSent, ← hp, none]

/-- The whole frame is sent, and nothing is received yet. -/
theorem afterSent_26 {s : State} (hcnt : s.rxcnt = 0) (resp : Vector Byte 26) (rest : List Input) :
    afterSent s 26 rest = afterReceived s resp 0 rest := by
  have none : s.rxcnt = 0#8 := hcnt
  simp [afterSent, afterReceived, none, putBytes_nil]

/-- Settles O26: 26 steps of the write, 25 of the read, and the one that completes the exchange. -/
theorem exchangeDeliversResponse : Obligations.ExchangeDeliversResponse := by
  intro s resp rest hinv hp htx hrx inputs
  have busy : s.busy = true := hinv.busy_of_phase (by simp [hp])
  have width (hx : s.xop = 0x09) : WidthOk s := (widthOk_iff s).mpr (hinv.exchange.width_checked busy hx)
  have bytes : resp.toList = resp.toList.take 25 ++ [resp[25]] := by
    rw [← take_succ_toList resp (by decide), List.take_of_length_le (by simp)]
  rw [bytes, List.map_append, List.map_singleton, List.append_assoc, List.append_assoc, List.singleton_append] at inputs
  have write := run_afterSent s ((resp.toList.take 25).map Input.rxByte ++ Input.rxByte resp[25] :: rest) (le_refl 26)
  rw [← inputs, afterSent_zero hp htx, afterSent_26 hrx resp] at write
  have read := run_afterReceived s resp (Input.rxByte resp[25] :: rest) (le_refl 25)
  calc Host.Core.run Sys2Proof.core (26 + (25 + 1)) s
      = Host.Core.run Sys2Proof.core (25 + 1) _ := run_add_of_run (25 + 1) write
    _ = Host.Core.run Sys2Proof.core 1 _ := run_add_of_run 1 read
    _ = _ := run_succ_of_step 0 (step_afterReceived_last s resp rest width)

end Sys2Proof.Machine
